-- ==== Sys2Proof/Word.lean ====
section
/-! DEFINITION. The word types of the block: the byte of every register and port, and the request
descriptor that the TX ports carry (30_encoding.md R95). -/

namespace Sys2Proof

/-- A byte: an unsigned 8-bit value, bit 0 least significant (R8, R7 `BYTE`). -/
abbrev Byte := BitVec 8

/-- The TX request descriptor: the input ports that TXS reads on a TX.FRAME edge (R95). It is not
state (R39). The values of `type` and `msg` under a low present flag, and the body bytes at or
beyond `cnt`, are on the ports all the same; no rule reads them (93 I13). -/
structure TxDescriptor where
  /-- `i_tx_pre`: the preamble argument. -/
  pre : Byte
  /-- `i_tx_type_v`: packet type present. -/
  typeV : Bool
  /-- `i_tx_type`: packet type value. -/
  type : Byte
  /-- `i_tx_msg_v`: message kind present. -/
  msgV : Bool
  /-- `i_tx_msg`: message kind value. -/
  msg : Byte
  /-- `i_tx_cnt`: body length, 0..255. -/
  cnt : Byte
  /-- `i_tx_body[0..254]`. -/
  body : Vector Byte 255
  deriving DecidableEq, Repr

/-- The descriptor with every port at zero: what the TX ports carry in the model's own fetch and
encoding when the operation does not read them. -/
def TxDescriptor.zero : TxDescriptor :=
  { pre := 0, typeV := false, type := 0, msgV := false, msg := 0, cnt := 0,
    body := Vector.replicate 255 0 }

end Sys2Proof
end

