-- ==== Sys2Proof/Config.lean ====
section
/-! DEFINITION. The implementation parameters of 00_scope.md R7. All are fixed values; the one open
parameter, `LENIENT_KIND`, is a strap and stands in the state (R41), with its default here. The spec
leaves no value free in this block, so there is no opaque constant. -/

namespace Sys2Proof

/-- Preamble bytes (R81). -/
def Config.sof : Byte := 0x01
def Config.ack : Byte := 0x06
def Config.nak : Byte := 0x15
def Config.can : Byte := 0x18

/-- The preambles of the one-byte control frames (R80, R81). -/
def Config.controlPreambles : List Byte := [0x06, 0x15, 0x18]

/-- `PREAMBLES` (R7, R81). -/
def Config.preambles : List Byte := [0x01, 0x06, 0x15, 0x18]

/-- `KNOWN_TYPES`: REQUEST and RESPONSE (R7, R83). -/
def Config.knownTypes : List Byte := [0x00, 0x01]

/-- `KNOWN_KINDS` (R7, R85; the closed list, 90 C5). -/
def Config.knownKinds : List Byte := [0x00, 0x02, 0x04, 0x05, 0x07, 0x13, 0x49]

/-- `LEN_MIN` (R7): LENGTH counts type, kind and checksum. -/
def Config.lenMin : Nat := 3

/-- `BODY_MAX` (R7): elements of `rx_body` and `o_rx_body` (R26, R33; D9). -/
def Config.bodyMax : Nat := 252

/-- `FRAME_MAX` (R7; 257, not 256: 90 C7): elements of `o_tx_buf` (R38). -/
def Config.frameMax : Nat := 257

/-- The default of the strap `LENIENT_KIND`: strict (R7, R41; D7). -/
def Config.lenientDefault : Bool := false

end Sys2Proof
end

