-- ==== Sys2Proof/Syntax.lean ====
section
/-! DEFINITION. The instructions: one constructor per row of spec/opcode_table.json (R99). A
constructor carries the bits of its word that its row's mask leaves free, and the data inputs that
its rule reads; the word's fixed bits are the constructor itself. -/

namespace Sys2Proof

/-- An operation of the block (R2): 5 PORT rows (R89), 24 RXSTEP rows (R91), 3 CSU rows (R94).
In a PORT row, `rx` and `tx` are the strobes `i_rx_valid` and `i_tx_req` where the row ignores them.
In an RXSTEP row, `l` is the word's bit `L` (`LENIENT_KIND`) where the row ignores it, and `b` its
byte `B` where the row does not fix it (R90). -/
inductive Instr where
  /-- RESET (R200). -/
  | reset (rx tx : Bool)
  /-- RX.STEP (R140): RXD consumes `b` = `i_rx_byte`. -/
  | rxStep (tx : Bool) (b : Byte)
  /-- RX.IDLE (R201). -/
  | rxIdle (tx : Bool)
  /-- TX.FRAME (R183): TXS serializes the descriptor `d`. -/
  | txFrame (rx : Bool) (d : TxDescriptor)
  /-- TX.IDLE (R202). -/
  | txIdle (rx : Bool)
  /-- RX.PRE.SOF (R142). -/
  | rxPreSof (l : Bool)
  /-- RX.PRE.ACK (R143). -/
  | rxPreAck (l : Bool)
  /-- RX.PRE.NAK (R143). -/
  | rxPreNak (l : Bool)
  /-- RX.PRE.CAN (R143). -/
  | rxPreCan (l : Bool)
  /-- RX.PRE.BAD (R144). -/
  | rxPreBad (l : Bool) (b : Byte)
  /-- RX.LEN.BAD.A (R145): byte 0x00 or 0x01. -/
  | rxLenBadA (l : Bool) (b : Byte)
  /-- RX.LEN.BAD.B (R145): byte 0x02. -/
  | rxLenBadB (l : Bool)
  /-- RX.LEN.OK (R146). -/
  | rxLenOk (l : Bool) (b : Byte)
  /-- RX.TYPE.REQ (R147): byte 0x00. -/
  | rxTypeReq (l : Bool)
  /-- RX.TYPE.RSP (R147): byte 0x01. -/
  | rxTypeRsp (l : Bool)
  /-- RX.TYPE.BAD (R148). -/
  | rxTypeBad (l : Bool) (b : Byte)
  /-- RX.KIND.K00 (R149). -/
  | rxKindK00 (l : Bool)
  /-- RX.KIND.K02 (R149). -/
  | rxKindK02 (l : Bool)
  /-- RX.KIND.K04 (R149). -/
  | rxKindK04 (l : Bool)
  /-- RX.KIND.K05 (R149). -/
  | rxKindK05 (l : Bool)
  /-- RX.KIND.K07 (R149). -/
  | rxKindK07 (l : Bool)
  /-- RX.KIND.K13 (R149). -/
  | rxKindK13 (l : Bool)
  /-- RX.KIND.K49 (R149). -/
  | rxKindK49 (l : Bool)
  /-- RX.KIND.UNK.LENIENT (R150). -/
  | rxKindUnkLenient (b : Byte)
  /-- RX.KIND.UNK.STRICT (R151). -/
  | rxKindUnkStrict (b : Byte)
  /-- RX.BODY (R152). -/
  | rxBody (l : Bool) (b : Byte)
  /-- RX.CSUM (R153). -/
  | rxCsum (l : Bool) (b : Byte)
  /-- RX.RSV6 (R93): reserved state code 6. -/
  | rxRsv6 (l : Bool) (b : Byte)
  /-- RX.RSV7 (R93): reserved state code 7. -/
  | rxRsv7 (l : Bool) (b : Byte)
  /-- CSU.INIT (R122); `absorb` is `csu_absorb`, which the row ignores. -/
  | csuInit (absorb : Bool)
  /-- CSU.ABSORB (R123) of `b` = `csu_byte`. -/
  | csuAbsorb (b : Byte)
  /-- CSU.HOLD (R124). -/
  | csuHold
  deriving DecidableEq, Repr

end Sys2Proof
end

