-- ==== Sys2Proof/WellFormed.lean ====
section
/-! DEFINITION. Which instructions are well formed: the byte of an RXSTEP row whose mask leaves it
free is one that the rows above it leave to it (R91), so that each word stands for one instruction. -/

namespace Sys2Proof

/-- The byte tests of R91: rows 5, 6, 8, 11, 19 and 20 take only the bytes named in the column
"meaning". Every other constructor fixes its byte or takes any. -/
def Instr.wellFormed (i : Instr) : Bool :=
  match i with
  | .rxPreBad _ b => decide (b ∉ Config.preambles)
  | .rxLenBadA _ b => decide (b.toNat < 2)
  | .rxLenOk _ b => decide (Config.lenMin ≤ b.toNat)
  | .rxTypeBad _ b => decide (b ∉ Config.knownTypes)
  | .rxKindUnkLenient b => decide (b ∉ Config.knownKinds)
  | .rxKindUnkStrict b => decide (b ∉ Config.knownKinds)
  | .reset _ _ | .rxStep _ _ | .rxIdle _ | .txFrame _ _ | .txIdle _ => true
  | .rxPreSof _ | .rxPreAck _ | .rxPreNak _ | .rxPreCan _ => true
  | .rxLenBadB _ | .rxTypeReq _ | .rxTypeRsp _ => true
  | .rxKindK00 _ | .rxKindK02 _ | .rxKindK04 _ | .rxKindK05 _ => true
  | .rxKindK07 _ | .rxKindK13 _ | .rxKindK49 _ => true
  | .rxBody _ _ | .rxCsum _ _ | .rxRsv6 _ _ | .rxRsv7 _ _ => true
  | .csuInit _ | .csuAbsorb _ | .csuHold => true

end Sys2Proof
end

