-- ==== Sys2Proof/Decode.lean ====
section
/-! DEFINITION. The decode tables of the three word formats (R89 PORT, R91 RXSTEP, R94 CSU; R99) and
the encoder written from the same tables. Rows are tried in the table's order and the first row with
`(word & mask) = match` wins. -/

namespace Sys2Proof

/-- The agent that decodes a PORT word (R89, R99): each decodes `P` over its own rows and RESET. -/
inductive Side where
  | rx
  | tx
  deriving DecidableEq, Repr

/-- A word of one of the three formats, with the data inputs beside it: `i_rx_byte` and the TX
descriptor beside a PORT word (R89, R95), `csu_byte` beside a CSU word (R94). The RXSTEP word holds
its byte itself (R90). -/
inductive EncodedWord where
  | port (p : BitVec 3) (rxByte : Byte) (d : TxDescriptor)
  | rxStep (w : BitVec 12)
  | csu (c : BitVec 2) (byte : Byte)
  deriving DecidableEq, Repr

/-- Why a number is no word of the table's formats. -/
inductive DecodeError where
  /-- Bits above the PORT word's three are not zero. -/
  | portTooWide
  /-- Bits above the RXSTEP word's twelve are not zero. -/
  | rxStepTooWide
  /-- Bits above the CSU word's two are not zero. -/
  | csuTooWide
  /-- No format has this many bits. -/
  | noSuchWidth
  /-- No row matches; the tables are total, so no word gives this (R91). -/
  | noRow
  deriving DecidableEq, Repr

/-- A row of the RXSTEP table: mask, match, and the instruction from the word's `L` and `B` bits. -/
structure RxRow where
  mask : BitVec 12
  pat : BitVec 12
  build : Bool → Byte → Instr

/-- The RXSTEP decode table, rows 1 to 24 (R91). -/
def rxRows : List RxRow :=
  [ ⟨0x7FF, 0x001, fun l _ => .rxPreSof l⟩,
    ⟨0x7FF, 0x006, fun l _ => .rxPreAck l⟩,
    ⟨0x7FF, 0x015, fun l _ => .rxPreNak l⟩,
    ⟨0x7FF, 0x018, fun l _ => .rxPreCan l⟩,
    ⟨0x700, 0x000, fun l b => .rxPreBad l b⟩,
    ⟨0x7FE, 0x100, fun l b => .rxLenBadA l b⟩,
    ⟨0x7FF, 0x102, fun l _ => .rxLenBadB l⟩,
    ⟨0x700, 0x100, fun l b => .rxLenOk l b⟩,
    ⟨0x7FF, 0x200, fun l _ => .rxTypeReq l⟩,
    ⟨0x7FF, 0x201, fun l _ => .rxTypeRsp l⟩,
    ⟨0x700, 0x200, fun l b => .rxTypeBad l b⟩,
    ⟨0x7FF, 0x300, fun l _ => .rxKindK00 l⟩,
    ⟨0x7FF, 0x302, fun l _ => .rxKindK02 l⟩,
    ⟨0x7FF, 0x304, fun l _ => .rxKindK04 l⟩,
    ⟨0x7FF, 0x305, fun l _ => .rxKindK05 l⟩,
    ⟨0x7FF, 0x307, fun l _ => .rxKindK07 l⟩,
    ⟨0x7FF, 0x313, fun l _ => .rxKindK13 l⟩,
    ⟨0x7FF, 0x349, fun l _ => .rxKindK49 l⟩,
    ⟨0xF00, 0xB00, fun _ b => .rxKindUnkLenient b⟩,
    ⟨0xF00, 0x300, fun _ b => .rxKindUnkStrict b⟩,
    ⟨0x700, 0x400, fun l b => .rxBody l b⟩,
    ⟨0x700, 0x500, fun l b => .rxCsum l b⟩,
    ⟨0x700, 0x600, fun l b => .rxRsv6 l b⟩,
    ⟨0x700, 0x700, fun l b => .rxRsv7 l b⟩ ]

/-- The first row of a table that a word matches (R91, R99). -/
def firstRxRow (rows : List RxRow) (w : BitVec 12) : Option RxRow :=
  match rows with
  | [] => none
  | r :: rest => if w &&& r.mask = r.pat then some r else firstRxRow rest w

/-- Decode an RXSTEP word (R91): `L` is bit 11, `B` bits 7..0 (R90). -/
def decodeRxStep (w : BitVec 12) : Option Instr :=
  (firstRxRow rxRows w).map fun r => r.build (w.getLsbD 11) (w.extractLsb' 0 8)

/-- A row of the PORT table, with the instruction from the word and its data inputs. -/
structure PortRow where
  mask : BitVec 3
  pat : BitVec 3
  build : BitVec 3 → Byte → TxDescriptor → Instr

/-- The rows the RX side decodes `P` over, RESET first (R89, R99). -/
def portRowsRx : List PortRow :=
  [ ⟨0b100, 0b100, fun p _ _ => .reset (p.getLsbD 1) (p.getLsbD 0)⟩,
    ⟨0b110, 0b010, fun p b _ => .rxStep (p.getLsbD 0) b⟩,
    ⟨0b110, 0b000, fun p _ _ => .rxIdle (p.getLsbD 0)⟩ ]

/-- The rows the TX side decodes `P` over, RESET first (R89, R99). -/
def portRowsTx : List PortRow :=
  [ ⟨0b100, 0b100, fun p _ _ => .reset (p.getLsbD 1) (p.getLsbD 0)⟩,
    ⟨0b101, 0b001, fun p _ d => .txFrame (p.getLsbD 1) d⟩,
    ⟨0b101, 0b000, fun p _ _ => .txIdle (p.getLsbD 1)⟩ ]

/-- The first PORT row that a word matches (R99). -/
def firstPortRow (rows : List PortRow) (p : BitVec 3) : Option PortRow :=
  match rows with
  | [] => none
  | r :: rest => if p &&& r.mask = r.pat then some r else firstPortRow rest p

/-- What one side decodes from the port word and the data inputs of an edge (R89, R99). -/
def decodePort (side : Side) (p : BitVec 3) (b : Byte) (d : TxDescriptor) : Option Instr :=
  (firstPortRow (match side with | .rx => portRowsRx | .tx => portRowsTx) p).map
    fun r => r.build p b d

/-- Decode a CSU word with its byte input (R94): INIT before ABSORB. -/
def decodeCsu (c : BitVec 2) (byte : Byte) : Instr :=
  if c &&& 0b10 = 0b10 then .csuInit (c.getLsbD 0)
  else if c &&& 0b11 = 0b01 then .csuAbsorb byte
  else .csuHold

/-- Decode a word of any format, for one side where the format is PORT. -/
def decodeWord (side : Side) (w : EncodedWord) : Option Instr :=
  match w with
  | .port p b d => decodePort side p b d
  | .rxStep w => decodeRxStep w
  | .csu c byte => some (decodeCsu c byte)

/-- One edge without reset runs an RX row and a TX row (R89). Where one instruction must be named for
a port word, the model names the RX row, unless the TX strobe alone is high (DESIGN CHOICE, log 2). -/
def leadOfPort (p : BitVec 3) (b : Byte) (d : TxDescriptor) : Option Instr :=
  if p = 0b001 then decodePort .tx p b d else decodePort .rx p b d

/-- The instruction of a word of the opcode table given as a number of `nbits` bits: exactly the
format's width or that width in whole bytes. Eight bits are read as a PORT word, not as a CSU word,
which has no port of the block (R94; DESIGN CHOICE, log 2). The data inputs beside the word are 0. -/
def decodeTable (nbits w : Nat) : Except DecodeError Instr :=
  let found (o : Option Instr) : Except DecodeError Instr :=
    match o with
    | some i => .ok i
    | none => .error .noRow
  match nbits with
  | 2 => if w < 4 then .ok (decodeCsu (BitVec.ofNat 2 w) 0) else .error .csuTooWide
  | 3 | 8 =>
    if w < 8 then found (leadOfPort (BitVec.ofNat 3 w) 0 TxDescriptor.zero)
    else .error .portTooWide
  | 12 | 16 => if w < 4096 then found (decodeRxStep (BitVec.ofNat 12 w)) else .error .rxStepTooWide
  | _ => .error .noSuchWidth

/-- The instruction that the decoder reads from a table word; none where it refuses. -/
def decodeTableWord (nbits w : Nat) : Option Instr :=
  match decodeTable nbits w with
  | .ok i => some i
  | .error _ => none

/-- The port word `P = rst·4 + i_rx_valid·2 + i_tx_req` (R89). -/
def portWord (rst rx tx : Bool) : BitVec 3 :=
  BitVec.ofBool rst ++ BitVec.ofBool rx ++ BitVec.ofBool tx

/-- The RXSTEP word `W`: `L` in bit 11, the state code in bits 10..8, the byte in bits 7..0 (R90). -/
def rxStepWord (l : Bool) (code : BitVec 3) (b : Byte) : BitVec 12 :=
  BitVec.ofBool l ++ code ++ b

/-- The word that encodes an instruction: its row's match, with the free bits from its operands
(R89, R91, R94). Data inputs that the instruction does not read are 0. -/
def encode (i : Instr) : EncodedWord :=
  match i with
  | .reset rx tx => .port (portWord true rx tx) 0 TxDescriptor.zero
  | .rxStep tx b => .port (portWord false true tx) b TxDescriptor.zero
  | .rxIdle tx => .port (portWord false false tx) 0 TxDescriptor.zero
  | .txFrame rx d => .port (portWord false rx true) 0 d
  | .txIdle rx => .port (portWord false rx false) 0 TxDescriptor.zero
  | .rxPreSof l => .rxStep (rxStepWord l 0 0x01)
  | .rxPreAck l => .rxStep (rxStepWord l 0 0x06)
  | .rxPreNak l => .rxStep (rxStepWord l 0 0x15)
  | .rxPreCan l => .rxStep (rxStepWord l 0 0x18)
  | .rxPreBad l b => .rxStep (rxStepWord l 0 b)
  | .rxLenBadA l b => .rxStep (rxStepWord l 1 b)
  | .rxLenBadB l => .rxStep (rxStepWord l 1 0x02)
  | .rxLenOk l b => .rxStep (rxStepWord l 1 b)
  | .rxTypeReq l => .rxStep (rxStepWord l 2 0x00)
  | .rxTypeRsp l => .rxStep (rxStepWord l 2 0x01)
  | .rxTypeBad l b => .rxStep (rxStepWord l 2 b)
  | .rxKindK00 l => .rxStep (rxStepWord l 3 0x00)
  | .rxKindK02 l => .rxStep (rxStepWord l 3 0x02)
  | .rxKindK04 l => .rxStep (rxStepWord l 3 0x04)
  | .rxKindK05 l => .rxStep (rxStepWord l 3 0x05)
  | .rxKindK07 l => .rxStep (rxStepWord l 3 0x07)
  | .rxKindK13 l => .rxStep (rxStepWord l 3 0x13)
  | .rxKindK49 l => .rxStep (rxStepWord l 3 0x49)
  | .rxKindUnkLenient b => .rxStep (rxStepWord true 3 b)
  | .rxKindUnkStrict b => .rxStep (rxStepWord false 3 b)
  | .rxBody l b => .rxStep (rxStepWord l 4 b)
  | .rxCsum l b => .rxStep (rxStepWord l 5 b)
  | .rxRsv6 l b => .rxStep (rxStepWord l 6 b)
  | .rxRsv7 l b => .rxStep (rxStepWord l 7 b)
  | .csuInit absorb => .csu (1#1 ++ BitVec.ofBool absorb) 0
  | .csuAbsorb b => .csu 0b01 b
  | .csuHold => .csu 0b00 0

/-- The side whose decode of a PORT word gives the instruction back: TX for the two TX rows, RX for
all others (RESET is a row of both). -/
def Instr.side (i : Instr) : Side :=
  match i with
  | .txFrame _ _ | .txIdle _ => .tx
  | .reset _ _ | .rxStep _ _ | .rxIdle _ => .rx
  | .rxPreSof _ | .rxPreAck _ | .rxPreNak _ | .rxPreCan _ | .rxPreBad _ _ => .rx
  | .rxLenBadA _ _ | .rxLenBadB _ | .rxLenOk _ _ => .rx
  | .rxTypeReq _ | .rxTypeRsp _ | .rxTypeBad _ _ => .rx
  | .rxKindK00 _ | .rxKindK02 _ | .rxKindK04 _ | .rxKindK05 _ => .rx
  | .rxKindK07 _ | .rxKindK13 _ | .rxKindK49 _ => .rx
  | .rxKindUnkLenient _ | .rxKindUnkStrict _ => .rx
  | .rxBody _ _ | .rxCsum _ _ | .rxRsv6 _ _ | .rxRsv7 _ _ => .rx
  | .csuInit _ | .csuAbsorb _ | .csuHold => .rx

/-- The word as the opcode table numbers it, without its data inputs. -/
def EncodedWord.bits (w : EncodedWord) : Nat :=
  match w with
  | .port p _ _ => p.toNat
  | .rxStep w => w.toNat
  | .csu c _ => c.toNat

end Sys2Proof
end

