-- ==== Sys2Proof/Machine/State.lean ====
section
/-! DEFINITION. The state of the block as plain data (10_state.md), the host's pending inputs beside
it, the reasons a step can stop, and the state right after reset (R43). -/

namespace Sys2Proof.Machine

/-- The states of the deserializer FSM (R21). Codes 6 and 7 have no state here: the state type of a
model lacks them (R93, 93 I3; log 13). -/
inductive RxState where
  | preamble
  | length
  | packetType
  | messageType
  | body
  | checksum
  deriving DecidableEq, Repr

/-- `o_rx_res` (R33): the result of the last outcome. Value 3 is never driven (93 I12). -/
inductive RxResult where
  | none
  | packet
  | error
  deriving DecidableEq, Repr

/-- `o_rx_err` (R33, R221): the error of the last outcome. Values 6 and 7 are never driven there. -/
inductive RxError where
  | none
  | unknownPreamble
  | badLength
  | unknownPacketType
  | unknownMessageType
  | badChecksum
  deriving DecidableEq, Repr

/-- `o_tx_status` (R38, R221): 0 OK or 6 InvalidFrame. -/
inductive TxStatus where
  | ok
  | invalidFrame
  deriving DecidableEq, Repr

/-- A byte store of the block (R60) as its written elements: index and byte, indexes strictly rising.
An element that nothing has written since reset has no value and is not listed (R26, R43, R44;
DEDUCED, log 3). -/
abbrev Memory := List Host.Cell

/-- RXD's in-flight frame state (R21 to R27). -/
structure RxInFlight where
  /-- The FSM state (R21). -/
  rxState : RxState
  /-- The pending LENGTH (R22). -/
  rxLen : Byte
  /-- The stored PACKET_TYPE (R23). -/
  rxType : Byte
  /-- The stored MESSAGE_KIND (R24). -/
  rxKind : Byte
  /-- The number of body bytes captured (R25). -/
  rxCnt : Byte
  /-- The in-flight body buffer, indexes 0..251 (R26). -/
  rxBody : Memory
  /-- CSU's accumulator (R27, R125). -/
  rxAcc : Byte
  deriving DecidableEq, Repr

/-- RXD's output registers (R33). -/
structure RxOutputs where
  /-- 1 for the cycle after a step that produced an outcome (R34). -/
  oRxValid : Bool
  oRxRes : RxResult
  oRxErr : RxError
  /-- The input byte of the step that produced the last outcome. -/
  oRxByte : Byte
  oRxPreV : Bool
  oRxPre : Byte
  oRxLenV : Bool
  oRxLen : Byte
  oRxTypeV : Bool
  oRxType : Byte
  oRxMsgV : Bool
  oRxMsg : Byte
  /-- Body length, 0..252. -/
  oRxCnt : Byte
  /-- Body bytes, indexes 0..251; only those below `oRxCnt` are meaningful. -/
  oRxBody : Memory
  oRxCsumV : Bool
  oRxCsum : Byte
  deriving DecidableEq, Repr

/-- TXS's output registers (R38). -/
structure TxOutputs where
  /-- 1 for the cycle after a TX.FRAME step (R40). -/
  oTxValid : Bool
  oTxStatus : TxStatus
  /-- Number of serialized bytes, 0..257. -/
  oTxLen : BitVec 9
  /-- The serialized frame, indexes 0..256; only bytes below `oTxLen` are meaningful. -/
  oTxBuf : Memory
  deriving DecidableEq, Repr

/-- The input ports on one clock edge (R89, R95, R41): what the host drives. -/
structure Edge where
  rst : Bool
  iRxValid : Bool
  iTxReq : Bool
  iRxByte : Byte
  iTx : TxDescriptor
  /-- The level of the strap `LENIENT_KIND` on this edge. -/
  lenientKind : Bool
  deriving DecidableEq, Repr

/-- The machine: the four groups of R20, and the host's script. -/
structure State where
  /-- In-flight frame state of RXD (R21 to R28). -/
  rx : RxInFlight
  /-- Output registers of RXD (R33 to R37). -/
  rxOut : RxOutputs
  /-- Output registers of TXS (R38 to R40). -/
  tx : TxOutputs
  /-- The strap `LENIENT_KIND` (R41): 0 strict, 1 lenient. Held here so that a change without reset can
  be refused (R261; DESIGN CHOICE, log 4). -/
  lenientKind : Bool
  /-- MODEL'S OWN: the edges the host has still to drive, next first (R97, R237;
  DESIGN CHOICE, log 1). -/
  script : List Edge
  deriving DecidableEq, Repr

/-- Why a step stops with a fault. The block itself has no fault (93, treatments `fault` and `stuck`:
not used); this one is raised only in states that no run reaches. -/
inductive Fault where
  /-- Raised by RX.BODY and RX.CSUM when `rx_cnt` names an element outside `rx_body[0..251]`, an
  address the spec says is never formed (R61, R158). Safe: the machine stops where the spec gives no
  element. -/
  | bodyIndexOutOfRange
  deriving DecidableEq, Repr

/-- Why a step has no meaning. -/
inductive Refusal where
  /-- Raised by an arm of `exec` for an instruction that has no meaning yet; no arm does. Safe. -/
  | notModelled (mnemonic : String)
  /-- Raised by RX.RSV6 and RX.RSV7: "a model refuses an RXSTEP word with S = 6 or 7" (R93, 93 I3).
  Safe. -/
  | reservedStateCode
  /-- Raised by a step whose edge moves `LENIENT_KIND` while `rst` = 0: "a model refuses it" (R261,
  93 I10). Safe. -/
  | strapChanged
  /-- Raised by RX.CSUM when a body byte below `rx_cnt` was never written, and by the host's reads of
  `o_rx_body` and `o_tx_buf` at or beyond their counts or of unwritten elements (R44, 93 I4). Safe. -/
  | unwrittenByte
  /-- Raised by `validateChecksum` on a frame it does not cover (R127, 93 I6). Safe. -/
  | checksumNotDefined
  /-- Raised by RX.STEP when no RXSTEP row matches its word; the table is total, so no word does
  (R91). Safe. -/
  | noRxRow
  deriving DecidableEq, Repr

/-- What a meaning and a step answer. -/
abbrev Result := Host.Outcome State Fault Refusal

/-- The in-flight registers after reset (R43); `rx_body` has no value (R44). -/
def RxInFlight.reset : RxInFlight :=
  { rxState := .preamble, rxLen := 0x00, rxType := 0x00, rxKind := 0x00, rxCnt := 0, rxBody := [],
    rxAcc := 0xFF }

/-- The RX output registers after reset (R43); `o_rx_body` has no value (R44). -/
def RxOutputs.reset : RxOutputs :=
  { oRxValid := false, oRxRes := .none, oRxErr := .none, oRxByte := 0x00,
    oRxPreV := false, oRxPre := 0x00, oRxLenV := false, oRxLen := 0x00,
    oRxTypeV := false, oRxType := 0x00, oRxMsgV := false, oRxMsg := 0x00,
    oRxCnt := 0, oRxBody := [], oRxCsumV := false, oRxCsum := 0x00 }

/-- The TX output registers after reset (R43); `o_tx_buf` has no value (R44). -/
def TxOutputs.reset : TxOutputs :=
  { oTxValid := false, oTxStatus := .ok, oTxLen := 0, oTxBuf := [] }

/-- The machine right after reset (R43), the strap at its default (R41) and no edge pending. -/
def State.reset : State :=
  { rx := .reset, rxOut := .reset, tx := .reset, lenientKind := Config.lenientDefault, script := [] }

end Sys2Proof.Machine
end

