-- ==== Sys2Proof/Machine/Flags.lean ====
section
/-! DEFINITION. The status flags and codes. The block has no condition codes (R35): its only flags are
the pulses `o_rx_valid` (R34) and `o_tx_valid` (R40), and the codes of the output registers are those
of R33, R38, R92 and R221. -/

namespace Sys2Proof.Machine

/-- `o_rx_valid <- 0`, every other output register unchanged (R34, R140, R201). -/
def RxOutputs.quiet (o : RxOutputs) : RxOutputs :=
  { o with oRxValid := false }

/-- `o_tx_valid <- 0`, every other output register unchanged (R40, R202). -/
def TxOutputs.quiet (o : TxOutputs) : TxOutputs :=
  { o with oTxValid := false }

/-- The 3-bit code of an FSM state (R92). -/
def RxState.code (st : RxState) : BitVec 3 :=
  match st with
  | .preamble => 0
  | .length => 1
  | .packetType => 2
  | .messageType => 3
  | .body => 4
  | .checksum => 5

/-- The FSM state of a code; codes 6 and 7 have none (R92, R93). -/
def RxState.ofCode (c : BitVec 3) : Option RxState :=
  match c with
  | 0 => some .preamble
  | 1 => some .length
  | 2 => some .packetType
  | 3 => some .messageType
  | 4 => some .body
  | 5 => some .checksum
  | _ => none

/-- The 2-bit code of `o_rx_res` (R33). -/
def RxResult.code (r : RxResult) : BitVec 2 :=
  match r with
  | .none => 0
  | .packet => 1
  | .error => 2

/-- The 3-bit code of `o_rx_err` (R221). -/
def RxError.code (e : RxError) : BitVec 3 :=
  match e with
  | .none => 0
  | .unknownPreamble => 1
  | .badLength => 2
  | .unknownPacketType => 3
  | .unknownMessageType => 4
  | .badChecksum => 5

/-- The 3-bit code of `o_tx_status` (R38, R221). -/
def TxStatus.code (t : TxStatus) : BitVec 3 :=
  match t with
  | .ok => 0
  | .invalidFrame => 6

/-- The status output `o_rx_state` (R37), a combinational copy of the FSM code. -/
def State.oRxState (s : State) : BitVec 3 :=
  s.rx.rxState.code

end Sys2Proof.Machine
end

