-- ==== Sys2Proof/Machine/Ops.lean ====
section
/-! DEFINITION. The operations that the meanings share: the byte stores (R10, R60), frame records
(R30 to R32), the checksum (R120) and the CSU (R94), and what every RX rule ends in: no outcome, a
packet, or the error entry (R140, R141, R224). There is no return from an error: the next byte is
decoded from PREAMBLE (R226). -/

namespace Sys2Proof.Machine

/-! ### Byte stores -/

/-- Read an element; none where nothing has written it. -/
def Memory.read (m : Memory) (a : Nat) : Option Byte :=
  match m with
  | [] => none
  | (k, v) :: rest => if k = a then some v else if a < k then none else Memory.read rest a

/-- Write an element, keeping the indexes strictly rising. -/
def Memory.write (m : Memory) (a : Nat) (v : Byte) : Memory :=
  match m with
  | [] => [(a, v)]
  | (k, w) :: rest =>
    if k = a then (a, v) :: rest
    else if a < k then (a, v) :: (k, w) :: rest
    else (k, w) :: Memory.write rest a v

/-- Write a byte sequence to the elements from `a` upward. -/
def Memory.writeList (m : Memory) (a : Nat) (bytes : List Byte) : Memory :=
  match bytes with
  | [] => m
  | b :: rest => Memory.writeList (m.write a b) (a + 1) rest

/-- Read the `n` elements from `a` upward; none where one of them was never written. -/
def Memory.readFrom (m : Memory) (a n : Nat) : Option (List Byte) :=
  match n with
  | 0 => some []
  | n + 1 =>
    match m.read a, Memory.readFrom m (a + 1) n with
    | some b, some rest => some (b :: rest)
    | _, _ => none

/-- The canonical form: every index is at least `lo` and below `size`, and they strictly rise. -/
def Memory.wfFrom (m : Memory) (lo size : Nat) : Bool :=
  match m with
  | [] => true
  | (k, _) :: rest => decide (lo ≤ k) && decide (k < size) && Memory.wfFrom rest (k + 1) size

/-- The canonical form of a store with elements `0 .. size − 1` (R61). -/
def Memory.wf (m : Memory) (size : Nat) : Bool :=
  m.wfFrom 0 size

/-! ### Checksum -/

/-- `XorFold(a, s)` (R9). -/
def xorFold (a : Byte) (bytes : List Byte) : Byte :=
  match bytes with
  | [] => a
  | b :: rest => xorFold (a ^^^ b) rest

/-- `Checksum(len, type, kind, body)` (R120). -/
def checksum (len type kind : Byte) (body : List Byte) : Byte :=
  xorFold 0xFF ([len, type, kind] ++ body)

/-- The accumulator after a CSU word (R94, R122 to R124). -/
def csuNext (c : BitVec 2) (byte acc : Byte) : Byte :=
  if c &&& 0b10 = 0b10 then 0xFF
  else if c &&& 0b11 = 0b01 then acc ^^^ byte
  else acc

/-- RXD's accumulator driven with the CSU strobes `c` and the byte `byte` (R27, R94, R125). -/
def RxInFlight.driveCsu (r : RxInFlight) (c : BitVec 2) (byte : Byte) : RxInFlight :=
  { r with rxAcc := csuNext c byte r.rxAcc }

/-! ### Frame records -/

/-- A Frame, the source's Packet (R30); `none` is an absent field. -/
structure Frame where
  pre : Byte
  len : Option Byte
  type : Option Byte
  kind : Option Byte
  body : List Byte
  csum : Option Byte
  deriving DecidableEq, Repr

/-- A Partial (R32): a Frame whose preamble too may be absent. -/
structure FramePart where
  pre : Option Byte
  len : Option Byte
  type : Option Byte
  kind : Option Byte
  body : List Byte
  csum : Option Byte
  deriving DecidableEq, Repr

/-- The Partial with no field (R223, UnknownPreamble). -/
def FramePart.empty : FramePart :=
  { pre := none, len := none, type := none, kind := none, body := [], csum := none }

/-- A Frame as the field group shows it (R33). -/
def Frame.toPart (f : Frame) : FramePart :=
  { pre := some f.pre, len := f.len, type := f.type, kind := f.kind, body := f.body, csum := f.csum }

/-- The control frame of a preamble: every other field absent (R30, R143). -/
def Frame.control (pre : Byte) : Frame :=
  { pre := pre, len := none, type := none, kind := none, body := [], csum := none }

/-- A structured frame with every field present (R30, R153). -/
def Frame.structured (len type kind : Byte) (body : List Byte) (csum : Byte) : Frame :=
  { pre := Config.sof, len := some len, type := some type, kind := some kind, body := body,
    csum := some csum }

/-! ### The outcome of an RX step -/

/-- `Clear()` (R141): the in-flight reset of every outcome. `rx_body` is not written. -/
def RxInFlight.clear (r : RxInFlight) : RxInFlight :=
  { r with rxState := .preamble, rxLen := 0x00, rxType := 0x00, rxKind := 0x00, rxCnt := 0,
           rxAcc := 0xFF }

/-- `Show(r)` (R140): the field group of the outcome registers. -/
def RxOutputs.showFields (o : RxOutputs) (p : FramePart) : RxOutputs :=
  { o with
    oRxPreV := p.pre.isSome, oRxPre := p.pre.getD 0x00,
    oRxLenV := p.len.isSome, oRxLen := p.len.getD 0x00,
    oRxTypeV := p.type.isSome, oRxType := p.type.getD 0x00,
    oRxMsgV := p.kind.isSome, oRxMsg := p.kind.getD 0x00,
    oRxCsumV := p.csum.isSome, oRxCsum := p.csum.getD 0x00,
    oRxCnt := BitVec.ofNat 8 p.body.length,
    oRxBody := Memory.writeList o.oRxBody 0 p.body }

/-- The outcome registers of an outcome (R140): the pulse, the result, the error, the byte, the
fields. -/
def RxOutputs.report (o : RxOutputs) (res : RxResult) (err : RxError) (b : Byte) (p : FramePart) :
    RxOutputs :=
  { o.showFields p with oRxValid := true, oRxRes := res, oRxErr := err, oRxByte := b }

/-- The end of an RX rule with outcome NONE: the in-flight registers become `r` (R140). -/
def State.noOutcome (s : State) (r : RxInFlight) : State :=
  { s with rx := r, rxOut := s.rxOut.quiet }

/-- `emit PACKET(f)`, then `Clear()` (R140, R141). -/
def State.emitPacket (s : State) (b : Byte) (f : Frame) : State :=
  { s with rx := s.rx.clear, rxOut := s.rxOut.report .packet .none b f.toPart }

/-- RX ERROR ENTRY `raise E(b, p)`, then `Clear()` (R224): the outcome registers record the error,
the failing byte and the Partial, and RXD is back in PREAMBLE on the same edge. -/
def State.raiseError (s : State) (e : RxError) (b : Byte) (p : FramePart) : State :=
  { s with rx := s.rx.clear, rxOut := s.rxOut.report .error e b p }

/-! ### The host's reads of the buffers (R44) -/

/-- The host reads `o_rx_body[i]`: refused at or beyond `o_rx_cnt` (R44). -/
def State.readRxBody (s : State) (i : Nat) : Except Refusal Byte :=
  if i < s.rxOut.oRxCnt.toNat then
    match Memory.read s.rxOut.oRxBody i with
    | some b => .ok b
    | none => .error .unwrittenByte
  else .error .unwrittenByte

/-- The host reads `o_tx_buf[i]`: refused at or beyond `o_tx_len` (R44). -/
def State.readTxBuf (s : State) (i : Nat) : Except Refusal Byte :=
  if i < s.tx.oTxLen.toNat then
    match Memory.read s.tx.oTxBuf i with
    | some b => .ok b
    | none => .error .unwrittenByte
  else .error .unwrittenByte

/-- The bytes that the host's transport takes: `o_tx_buf[0 .. o_tx_len)` (R38, R184). -/
def State.txBytes (s : State) : Option (List Byte) :=
  Memory.readFrom s.tx.oTxBuf 0 s.tx.oTxLen.toNat

/-- The record that the RX field group shows (R33): a field is present by its flag, the body is
`o_rx_body[0 .. o_rx_cnt)`. -/
def State.shownFields (s : State) : Option FramePart :=
  match Memory.readFrom s.rxOut.oRxBody 0 s.rxOut.oRxCnt.toNat with
  | none => none
  | some body =>
    some
      { pre := if s.rxOut.oRxPreV then some s.rxOut.oRxPre else none
        len := if s.rxOut.oRxLenV then some s.rxOut.oRxLen else none
        type := if s.rxOut.oRxTypeV then some s.rxOut.oRxType else none
        kind := if s.rxOut.oRxMsgV then some s.rxOut.oRxMsg else none
        body := body
        csum := if s.rxOut.oRxCsumV then some s.rxOut.oRxCsum else none }

end Sys2Proof.Machine
end

