-- ==== Sys2Proof/Machine/Operands.lean ====
section
/-! DEFINITION. The operand forms: the RXSTEP word (R90), the in-flight body (R26, R158), the TX
descriptor's arguments (R95), and the frame checks they feed (R31, R127). -/

namespace Sys2Proof.Machine

/-- The RXSTEP word that RXD forms for a byte: `W = (LENIENT_KIND, code(rx_state), i_rx_byte)`
(R90, R140). -/
def State.rxWord (s : State) (b : Byte) : BitVec 12 :=
  rxStepWord s.lenientKind s.rx.rxState.code b

/-- `rx_body[0..rx_cnt)` handed on to `k` (R26). A count above 252 names an element that does not
exist (R61); an element that nothing has written has no value (R44). -/
def State.withBody (s : State) (k : List Byte → Result) : Result :=
  if Config.bodyMax < s.rx.rxCnt.toNat then .fault .bodyIndexOutOfRange
  else
    match Memory.readFrom s.rx.rxBody 0 s.rx.rxCnt.toNat with
    | some body => k body
    | none => .refused .unwrittenByte

/-- The packet type argument: absent when its flag is low (R95, R180). -/
def typeArg (d : TxDescriptor) : Option Byte :=
  if d.typeV then some d.type else none

/-- The message kind argument: absent when its flag is low (R95, R180). -/
def kindArg (d : TxDescriptor) : Option Byte :=
  if d.msgV then some d.msg else none

/-- The body argument `i_tx_body[0 .. i_tx_cnt)` (R95, R180). -/
def bodyArg (d : TxDescriptor) : List Byte :=
  d.body.toList.take d.cnt.toNat

/-- `FrameValid(f)` under the strap (R31): the Packet construction invariant. A SOF frame with `kind`
absent is rejected under either strap (DEDUCED, log 15): R31's clause on `kind` read by itself would accept
it under the lenient strap, the source text that R31 quotes says that `message_kind` must be present. -/
def frameValid (lenient : Bool) (f : Frame) : Bool :=
  if f.pre ∈ Config.controlPreambles then
    f.len.isNone && f.type.isNone && f.kind.isNone && f.body.isEmpty && f.csum.isNone
  else if f.pre = Config.sof then
    match f.len, f.type, f.kind with
    | some len, some type, some kind =>
      decide (len.toNat = 3 + f.body.length) && decide (type ∈ Config.knownTypes) &&
        (decide (kind ∈ Config.knownKinds) || lenient) &&
        match f.csum with
        | none => true
        | some c => decide (c = checksum len type kind f.body)
    | _, _, _ => false
  else false

/-- `ValidateChecksum(f)` (R127): refused on a SOF frame with a field absent and on any other
preamble (log 11). -/
def validateChecksum (f : Frame) : Except Refusal Bool :=
  if f.pre ∈ Config.controlPreambles then .ok true
  else if f.pre = Config.sof then
    match f.csum, f.len, f.type, f.kind with
    | some c, some len, some type, some kind => .ok (decide (c = checksum len type kind f.body))
    | _, _, _, _ => .error .checksumNotDefined
  else .error .checksumNotDefined

end Sys2Proof.Machine
end

