-- ==== Sys2Proof/Machine/Control.lean ====
section
/-! DEFINITION. The control operations (43_control.md): reset and the idle edge of each agent. -/

namespace Sys2Proof.Machine

/-- RESET (R200): every register takes the value of R43, an in-flight frame is dropped with no
outcome, the buffers have no value (R43, R44). `LENIENT_KIND` is not changed (R200), and the host's
script is no register of the block. -/
def execReset (s : State) : Result :=
  .next { s with rx := .reset, rxOut := .reset, tx := .reset }

/-- RX.IDLE (R201): `o_rx_valid <- 0`, every other RXD register unchanged. -/
def execRxIdle (s : State) : Result :=
  .next { s with rxOut := s.rxOut.quiet }

/-- TX.IDLE (R202): `o_tx_valid <- 0`, the other TXS registers unchanged. -/
def execTxIdle (s : State) : Result :=
  .next { s with tx := s.tx.quiet }

end Sys2Proof.Machine
end

