-- ==== Sys2Proof/Machine/Csu.lean ====
section
/-! DEFINITION. The checksum unit's operations on the accumulator (40_checksum.md R122 to R124). The
accumulator is `rx_acc` (R20, R125), and the RX rules drive the same words (R94; DEDUCED, log 7). -/

namespace Sys2Proof.Machine

/-- CSU.INIT (R122): `acc <- 0xFF`; `csu_absorb` is ignored. -/
def execCsuInit (absorb : Bool) (s : State) : Result :=
  .next { s with rx := s.rx.driveCsu (1#1 ++ BitVec.ofBool absorb) 0 }

/-- CSU.ABSORB (R123): `acc <- acc ⊕ b`. -/
def execCsuAbsorb (b : Byte) (s : State) : Result :=
  .next { s with rx := s.rx.driveCsu 0b01 b }

/-- CSU.HOLD (R124): `acc` unchanged. -/
def execCsuHold (s : State) : Result :=
  .next { s with rx := s.rx.driveCsu 0b00 0 }

end Sys2Proof.Machine
end

