-- ==== Sys2Proof/Machine/Rx.lean ====
section
/-! DEFINITION. The deserializer's operations (41_rx_deserializer.md): one meaning per row of the
RXSTEP table (R91), and RX.STEP, which picks the row (R140). A row's meaning is its rule's pseudocode;
which state and byte it applies to is the decoder's matter (DESIGN CHOICE, log 6). -/

namespace Sys2Proof.Machine

/-! ### State PREAMBLE -/

/-- RX.PRE.SOF (R142): the start of a structured frame; SOF itself is not stored. -/
def execRxPreSof (s : State) : Result :=
  .next (s.noOutcome ({ s.rx with rxState := .length, rxCnt := 0 }.driveCsu 0b10 0))

/-- RX.PRE.CTRL (R143): a control frame is complete on its only byte. -/
def rxControl (b : Byte) (s : State) : Result :=
  .next (s.emitPacket b (Frame.control b))

/-- RX.PRE.ACK (R143). -/
def execRxPreAck (s : State) : Result := rxControl 0x06 s

/-- RX.PRE.NAK (R143). -/
def execRxPreNak (s : State) : Result := rxControl 0x15 s

/-- RX.PRE.CAN (R143). -/
def execRxPreCan (s : State) : Result := rxControl 0x18 s

/-- RX.PRE.BAD (R144): UnknownPreamble, no field captured. -/
def execRxPreBad (b : Byte) (s : State) : Result :=
  .next (s.raiseError .unknownPreamble b FramePart.empty)

/-! ### State LENGTH -/

/-- RX.LEN.BAD (R145): BadLength, with the length in the Partial. -/
def rxLenBad (b : Byte) (s : State) : Result :=
  .next (s.raiseError .badLength b { FramePart.empty with pre := some Config.sof, len := some b })

/-- RX.LEN.BAD.A (R145). -/
def execRxLenBadA (b : Byte) (s : State) : Result := rxLenBad b s

/-- RX.LEN.BAD.B (R145). -/
def execRxLenBadB (s : State) : Result := rxLenBad 0x02 s

/-- RX.LEN.OK (R146): store the length and absorb it. -/
def execRxLenOk (b : Byte) (s : State) : Result :=
  .next (s.noOutcome ({ s.rx with rxLen := b, rxState := .packetType }.driveCsu 0b01 b))

/-! ### State PACKET_TYPE -/

/-- RX.TYPE.OK (R147): store the packet type and absorb it. -/
def rxTypeOk (b : Byte) (s : State) : Result :=
  .next (s.noOutcome ({ s.rx with rxType := b, rxState := .messageType }.driveCsu 0b01 b))

/-- RX.TYPE.REQ (R147). -/
def execRxTypeReq (s : State) : Result := rxTypeOk 0x00 s

/-- RX.TYPE.RSP (R147). -/
def execRxTypeRsp (s : State) : Result := rxTypeOk 0x01 s

/-- RX.TYPE.BAD (R148): UnknownPacketType; the type is not stored. -/
def execRxTypeBad (b : Byte) (s : State) : Result :=
  .next (s.raiseError .unknownPacketType b
    { FramePart.empty with pre := some Config.sof, len := some s.rx.rxLen })

/-! ### State MESSAGE_TYPE -/

/-- RX.KIND.OK (R149): store the kind and absorb it; a LENGTH of 3 has no body. -/
def rxKindOk (b : Byte) (s : State) : Result :=
  let next : RxState := if s.rx.rxLen = 3 then .checksum else .body
  .next (s.noOutcome ({ s.rx with rxKind := b, rxState := next }.driveCsu 0b01 b))

/-- RX.KIND.K00 (R149). -/
def execRxKindK00 (s : State) : Result := rxKindOk 0x00 s

/-- RX.KIND.K02 (R149). -/
def execRxKindK02 (s : State) : Result := rxKindOk 0x02 s

/-- RX.KIND.K04 (R149). -/
def execRxKindK04 (s : State) : Result := rxKindOk 0x04 s

/-- RX.KIND.K05 (R149). -/
def execRxKindK05 (s : State) : Result := rxKindOk 0x05 s

/-- RX.KIND.K07 (R149). -/
def execRxKindK07 (s : State) : Result := rxKindOk 0x07 s

/-- RX.KIND.K13 (R149). -/
def execRxKindK13 (s : State) : Result := rxKindOk 0x13 s

/-- RX.KIND.K49 (R149). -/
def execRxKindK49 (s : State) : Result := rxKindOk 0x49 s

/-- RX.KIND.UNK.LENIENT (R150): exactly R149's pseudocode. Nothing is logged (93 I5). -/
def execRxKindUnkLenient (b : Byte) (s : State) : Result := rxKindOk b s

/-- RX.KIND.UNK.STRICT (R151): UnknownMessageType. -/
def execRxKindUnkStrict (b : Byte) (s : State) : Result :=
  .next (s.raiseError .unknownMessageType b
    { FramePart.empty with
      pre := some Config.sof, len := some s.rx.rxLen, type := some s.rx.rxType })

/-! ### States BODY and CHECKSUM -/

/-- RX.BODY (R152): append a body byte. The test `rx_cnt + 1 = rx_len − 3` is over exact integers
(R8), so it is written without the difference. Outside `rx_body[0..251]` the rule stops (log 8). -/
def execRxBody (b : Byte) (s : State) : Result :=
  if s.rx.rxCnt.toNat < Config.bodyMax then
    let next : RxState :=
      if s.rx.rxCnt.toNat + 1 + 3 = s.rx.rxLen.toNat then .checksum else .body
    .next (s.noOutcome
      ({ s.rx with
          rxBody := Memory.write s.rx.rxBody s.rx.rxCnt.toNat b,
          rxCnt := s.rx.rxCnt + 1,
          rxState := next }.driveCsu 0b01 b))
  else .fault .bodyIndexOutOfRange

/-- RX.CSUM (R153): check the candidate checksum `b` against the recomputed one, and deliver the
frame or raise BadChecksum with the whole frame as its Partial (log 8). -/
def execRxCsum (b : Byte) (s : State) : Result :=
  s.withBody fun body =>
    let f := Frame.structured s.rx.rxLen s.rx.rxType s.rx.rxKind body b
    if b = checksum s.rx.rxLen s.rx.rxType s.rx.rxKind body then .next (s.emitPacket b f)
    else .next (s.raiseError .badChecksum b f.toPart)

/-! ### Reserved state codes -/

/-- RX.RSV6 (R93): a model refuses the word. -/
def execRxRsv6 (_ : State) : Result := .refused .reservedStateCode

/-- RX.RSV7 (R93): a model refuses the word. -/
def execRxRsv7 (_ : State) : Result := .refused .reservedStateCode

/-! ### RX.STEP -/

/-- Execute the rule of an RXSTEP row (R140, step 3). The table builds no other constructor. -/
def runRxRow (i : Instr) (s : State) : Result :=
  match i with
  | .rxPreSof _ => execRxPreSof s
  | .rxPreAck _ => execRxPreAck s
  | .rxPreNak _ => execRxPreNak s
  | .rxPreCan _ => execRxPreCan s
  | .rxPreBad _ b => execRxPreBad b s
  | .rxLenBadA _ b => execRxLenBadA b s
  | .rxLenBadB _ => execRxLenBadB s
  | .rxLenOk _ b => execRxLenOk b s
  | .rxTypeReq _ => execRxTypeReq s
  | .rxTypeRsp _ => execRxTypeRsp s
  | .rxTypeBad _ b => execRxTypeBad b s
  | .rxKindK00 _ => execRxKindK00 s
  | .rxKindK02 _ => execRxKindK02 s
  | .rxKindK04 _ => execRxKindK04 s
  | .rxKindK05 _ => execRxKindK05 s
  | .rxKindK07 _ => execRxKindK07 s
  | .rxKindK13 _ => execRxKindK13 s
  | .rxKindK49 _ => execRxKindK49 s
  | .rxKindUnkLenient b => execRxKindUnkLenient b s
  | .rxKindUnkStrict b => execRxKindUnkStrict b s
  | .rxBody _ b => execRxBody b s
  | .rxCsum _ b => execRxCsum b s
  | .rxRsv6 _ _ => execRxRsv6 s
  | .rxRsv7 _ _ => execRxRsv7 s
  | .reset _ _ | .rxStep _ _ | .rxIdle _ | .txFrame _ _ | .txIdle _ => .refused .noRxRow
  | .csuInit _ | .csuAbsorb _ | .csuHold => .refused .noRxRow

/-- RX.STEP (R140): form the RXSTEP word, take the first matching row, execute its rule with the
byte. -/
def execRxStep (b : Byte) (s : State) : Result :=
  match decodeRxStep (s.rxWord b) with
  | some i => runRxRow i s
  | none => .refused .noRxRow

end Sys2Proof.Machine
end

