-- ==== Sys2Proof/Machine/Tx.lean ====
section
/-! DEFINITION. The serializer (42_tx_serializer.md): `Create`, `Serialize` and TX.FRAME. -/

namespace Sys2Proof.Machine

/-- `computed` of R180, a natural number 0..257. -/
def computedLength (d : TxDescriptor) : Nat :=
  (if d.typeV then 1 else 0) + (if d.msgV then 1 else 0) + d.cnt.toNat

/-- The checksum of the candidate frame: absent where type or kind is (R180; D14). -/
def createChecksum (d : TxDescriptor) (len : Byte) : Option Byte :=
  match typeArg d, kindArg d with
  | some type, some kind => some (checksum len type kind (bodyArg d))
  | _, _ => none

/-- `Create(d)` (R180). `none` where `computed + 1` is above 255: the candidate's length is then no
byte, so the candidate is no Frame (R30) and fails `FrameValid` (R31; D14; DEDUCED, log 9). -/
def create (d : TxDescriptor) : Option Frame :=
  if computedLength d = 0 then
    some { pre := d.pre, len := none, type := typeArg d, kind := kindArg d, body := bodyArg d,
           csum := none }
  else if computedLength d + 1 ≤ 255 then
    let len := BitVec.ofNat 8 (computedLength d + 1)
    some { pre := d.pre, len := some len, type := typeArg d, kind := kindArg d, body := bodyArg d,
           csum := createChecksum d len }
  else none

/-- `Serialize(f)` (R182): the canonical byte sequence, in wire order (R63). -/
def serialize (f : Frame) : List Byte :=
  [f.pre] ++ f.len.toList ++ f.type.toList ++ f.kind.toList ++ f.body ++ f.csum.toList

/-- The frame that TX.FRAME serializes, or none where it reports InvalidFrame (R183). -/
def acceptedFrame (lenient : Bool) (d : TxDescriptor) : Option Frame :=
  if Config.bodyMax < d.cnt.toNat then none
  else
    match create d with
    | some f => if frameValid lenient f then some f else none
    | none => none

/-- The outputs of an OK request: status, length and the whole frame (R183). -/
def TxOutputs.sendFrame (o : TxOutputs) (bytes : List Byte) : TxOutputs :=
  { oTxValid := true, oTxStatus := .ok, oTxLen := BitVec.ofNat 9 bytes.length,
    oTxBuf := Memory.writeList o.oTxBuf 0 bytes }

/-- The outputs of InvalidFrame: status 6, length 0, the buffer unchanged (R183, R232; D25). -/
def TxOutputs.rejectFrame (o : TxOutputs) : TxOutputs :=
  { oTxValid := true, oTxStatus := .invalidFrame, oTxLen := 0, oTxBuf := o.oTxBuf }

/-- TX.FRAME (R183): build, check and serialize one frame, or report InvalidFrame. -/
def execTxFrame (d : TxDescriptor) (s : State) : Result :=
  match acceptedFrame s.lenientKind d with
  | some f => .next { s with tx := s.tx.sendFrame (serialize f) }
  | none => .next { s with tx := s.tx.rejectFrame }

end Sys2Proof.Machine
end

