-- ==== Sys2Proof/Machine/Dispatch.lean ====
section
/-! DEFINITION. `exec`: one arm per constructor of `Instr`, each a direct call of its meaning. -/

namespace Sys2Proof.Machine

def exec (i : Instr) (s : State) : Host.Outcome State Fault Refusal :=
  match i with
  -- PORT rows (R89)
  | .reset _ _ => Sys2Proof.Machine.execReset s
  | .rxStep _ b => Sys2Proof.Machine.execRxStep b s
  | .rxIdle _ => Sys2Proof.Machine.execRxIdle s
  | .txFrame _ d => Sys2Proof.Machine.execTxFrame d s
  | .txIdle _ => Sys2Proof.Machine.execTxIdle s
  -- RXSTEP rows (R91)
  | .rxPreSof _ => Sys2Proof.Machine.execRxPreSof s
  | .rxPreAck _ => Sys2Proof.Machine.execRxPreAck s
  | .rxPreNak _ => Sys2Proof.Machine.execRxPreNak s
  | .rxPreCan _ => Sys2Proof.Machine.execRxPreCan s
  | .rxPreBad _ b => Sys2Proof.Machine.execRxPreBad b s
  | .rxLenBadA _ b => Sys2Proof.Machine.execRxLenBadA b s
  | .rxLenBadB _ => Sys2Proof.Machine.execRxLenBadB s
  | .rxLenOk _ b => Sys2Proof.Machine.execRxLenOk b s
  | .rxTypeReq _ => Sys2Proof.Machine.execRxTypeReq s
  | .rxTypeRsp _ => Sys2Proof.Machine.execRxTypeRsp s
  | .rxTypeBad _ b => Sys2Proof.Machine.execRxTypeBad b s
  | .rxKindK00 _ => Sys2Proof.Machine.execRxKindK00 s
  | .rxKindK02 _ => Sys2Proof.Machine.execRxKindK02 s
  | .rxKindK04 _ => Sys2Proof.Machine.execRxKindK04 s
  | .rxKindK05 _ => Sys2Proof.Machine.execRxKindK05 s
  | .rxKindK07 _ => Sys2Proof.Machine.execRxKindK07 s
  | .rxKindK13 _ => Sys2Proof.Machine.execRxKindK13 s
  | .rxKindK49 _ => Sys2Proof.Machine.execRxKindK49 s
  | .rxKindUnkLenient b => Sys2Proof.Machine.execRxKindUnkLenient b s
  | .rxKindUnkStrict b => Sys2Proof.Machine.execRxKindUnkStrict b s
  | .rxBody _ b => Sys2Proof.Machine.execRxBody b s
  | .rxCsum _ b => Sys2Proof.Machine.execRxCsum b s
  | .rxRsv6 _ _ => Sys2Proof.Machine.execRxRsv6 s
  | .rxRsv7 _ _ => Sys2Proof.Machine.execRxRsv7 s
  -- CSU rows (R94)
  | .csuInit absorb => Sys2Proof.Machine.execCsuInit absorb s
  | .csuAbsorb b => Sys2Proof.Machine.execCsuAbsorb b s
  | .csuHold => Sys2Proof.Machine.execCsuHold s

end Sys2Proof.Machine
end

