-- ==== Sys2Proof/Machine/Fetch.lean ====
section
/-! DEFINITION. What one clock edge runs: the edge the host drives next, the strap, the operations its
port word decodes to (R89, R203, R204), and how a table word is placed on the ports. The block fetches
no instruction (R72); an edge's inputs stand in the place of one. -/

namespace Sys2Proof.Machine

/-- An edge with no strobe, the strap held: the host drives nothing (R235; DESIGN CHOICE, log 1). -/
def Edge.idle (lenient : Bool) : Edge :=
  { rst := false, iRxValid := false, iTxReq := false, iRxByte := 0, iTx := TxDescriptor.zero,
    lenientKind := lenient }

/-- The port word of an edge (R89). -/
def Edge.portWord (e : Edge) : BitVec 3 :=
  Sys2Proof.portWord e.rst e.iRxValid e.iTxReq

/-- The edge that comes next: the head of the script, or an idle edge where the script has ended
(log 1). -/
def State.nextEdge (s : State) : Edge :=
  match s.script with
  | [] => Edge.idle s.lenientKind
  | e :: _ => e

/-- The state once that edge's inputs are taken from the script. -/
def State.dropEdge (s : State) : State :=
  { s with script := s.script.tail }

/-- The strap may differ from the value held only while `rst` is asserted (R261). -/
def Edge.strapAllowed (e : Edge) (lenient : Bool) : Bool :=
  e.rst || (e.lenientKind == lenient)

/-- The strap as the edge holds it (R41, R261; log 4). -/
def State.sampleStrap (s : State) (e : Edge) : State :=
  { s with lenientKind := e.lenientKind }

/-- The operations of one edge (R89, R204): RESET alone, or one RX operation and one TX operation. Both
sides decode RESET; it resets both agents once (DEDUCED, log 12). -/
def Edge.instrs (e : Edge) : List Instr :=
  match decodePort .rx e.portWord e.iRxByte e.iTx, decodePort .tx e.portWord e.iRxByte e.iTx with
  | some (.reset rx tx), _ => [.reset rx tx]
  | r, t => r.toList ++ t.toList

/-- Run the operations of one edge. They touch no common register, so running them one after the other
is running them together (R70, R203; DEDUCED, log 10). A stop of either stops the step. -/
def runInstrs (run : Instr → State → Result) (is : List Instr) (s : State) : Result :=
  match is with
  | [] => .next s
  | i :: rest =>
    match run i s with
    | .next s' => runInstrs run rest s'
    | .fault r => .fault r
    | .refused r => .refused r

/-- The edge that drives a port word with data inputs 0, the strap held. -/
def portEdge (p : BitVec 3) (lenient : Bool) : Edge :=
  { Edge.idle lenient with rst := p.getLsbD 2, iRxValid := p.getLsbD 1, iTxReq := p.getLsbD 0 }

/-- Put an edge before the script. -/
def State.pushEdge (s : State) (e : Edge) : State :=
  { s with script := e :: s.script }

/-- Make the next RXSTEP word `w`: the strap its bit 11, the FSM state its code, the byte on the input
port with `i_rx_valid` (R90). Codes 6 and 7 are no state of the machine (R93): nothing is placed. -/
def State.placeRxStep (s : State) (w : BitVec 12) : State :=
  match RxState.ofCode (w.extractLsb' 8 3) with
  | some st =>
    let l := w.getLsbD 11
    { s with rx := { s.rx with rxState := st }, lenientKind := l }.pushEdge
      { portEdge 0b010 l with iRxByte := w.extractLsb' 0 8 }
  | none => s

/-- Make the next edge one on which RXD drives the CSU word `c` with byte 0 (R94): SOF drives INIT, a
body byte 0 drives ABSORB, an idle edge drives HOLD (log 2). -/
def State.placeCsu (s : State) (c : BitVec 2) : State :=
  match decodeCsu c 0 with
  | .csuInit _ => s.placeRxStep (rxStepWord s.lenientKind 0 0x01)
  | .csuAbsorb b => s.placeRxStep (rxStepWord s.lenientKind 4 b)
  | _ => s.pushEdge (Edge.idle s.lenientKind)

/-- Place a word of the opcode table so that the next step runs it, its data inputs 0 (log 2). The
widths are those of `decodeTable`; a number that is no word of the table places nothing. -/
def State.placeWord (s : State) (nbits w : Nat) : State :=
  match nbits with
  | 2 => if w < 4 then s.placeCsu (BitVec.ofNat 2 w) else s
  | 3 | 8 => if w < 8 then s.pushEdge (portEdge (BitVec.ofNat 3 w) s.lenientKind) else s
  | 12 | 16 => if w < 4096 then s.placeRxStep (BitVec.ofNat 12 w) else s
  | _ => s

end Sys2Proof.Machine
end

