-- ==== Sys2Proof/Machine/Step.lean ====
section
/-! DEFINITION. One step: one rising edge of the clock (R11). -/

namespace Sys2Proof.Machine

/-- One clock edge: take the edge's inputs, refuse a strap that moves without reset (R261), run the
operations the port word decodes to (R89, R203, R204). -/
def step (s : State) : Host.Outcome State Fault Refusal :=
  let e := s.nextEdge
  if e.strapAllowed s.lenientKind then runInstrs exec e.instrs (s.dropEdge.sampleStrap e)
  else .refused .strapChanged

/-- `s` with a word of the opcode table on its ports for the next edge (log 2). -/
def State.withFetchWord (s : State) (nbits w : Nat) : State :=
  s.placeWord nbits w

end Sys2Proof.Machine
end

