-- ==== Sys2Proof/Machine/Script.lean ====
section
/-! DEFINITION. The lines of a script (R97) and the pseudo-operations (R98): each line is the edges that
the host drives for it. The block has no assembler; the notation is the spec's own. -/

namespace Sys2Proof.Machine

/-- The descriptor of the line `TX pre= type= msg= body=`: a field written sets its present flag, an
omitted one clears it; `i_tx_cnt` is the number of body bytes, at most 255 (R95, R97). The ports of an
omitted field and beyond the body are 0, and no rule reads them (93 I13). -/
def txLine (pre : Byte) (type msg : Option Byte) (body : List Byte) : TxDescriptor :=
  { pre := pre, typeV := type.isSome, type := type.getD 0, msgV := msg.isSome, msg := msg.getD 0,
    cnt := BitVec.ofNat 8 body.length,
    body := ⟨((body ++ List.replicate 255 0).take 255).toArray, by
      rw [List.size_toArray, List.length_take, List.length_append, List.length_replicate]
      omega⟩ }

/-- `SEND.ACK` (R98). -/
def sendAck : TxDescriptor := txLine 0x06 none none []

/-- `SEND.NAK` (R98). -/
def sendNak : TxDescriptor := txLine 0x15 none none []

/-- `SEND.CAN` (R98). -/
def sendCan : TxDescriptor := txLine 0x18 none none []

/-- `REQ kk` (R98): a request with no body. -/
def reqLine (kk : Byte) : TxDescriptor := txLine 0x01 (some 0x00) (some kk) []

/-- One line of a script (R97). -/
inductive ScriptLine where
  /-- `RST`. -/
  | rst
  /-- `RX hh hh …`. -/
  | rx (bytes : List Byte)
  /-- `IDLE n`. -/
  | idle (n : Nat)
  /-- `TX …`. -/
  | tx (d : TxDescriptor)
  /-- `RXTX hh …`. -/
  | rxTx (b : Byte) (d : TxDescriptor)
  deriving DecidableEq, Repr

/-- An edge that presents one byte to RXD and no TX request, the strap held at `l` (R97, `RX hh`). -/
def rxEdge (l : Bool) (b : Byte) : Edge :=
  { Edge.idle l with iRxValid := true, iRxByte := b }

/-- The edges of a line, the strap held at `l` (R97). -/
def ScriptLine.edges (l : Bool) (line : ScriptLine) : List Edge :=
  match line with
  | .rst => [{ Edge.idle l with rst := true }]
  | .rx bytes => bytes.map (rxEdge l)
  | .idle n => List.replicate n (Edge.idle l)
  | .tx d => [{ Edge.idle l with iTxReq := true, iTx := d }]
  | .rxTx b d => [{ Edge.idle l with iRxValid := true, iRxByte := b, iTxReq := true, iTx := d }]

/-- The edges of a script, the strap held at `l` (R97, R237). -/
def scriptEdges (l : Bool) (lines : List ScriptLine) : List Edge :=
  lines.flatMap (ScriptLine.edges l)

end Sys2Proof.Machine
end

