-- ==== Sys2Proof/Safety.lean ====
section
/-! DEFINITION. The terms that claims are stated in: the invariant of the reachable states (R27, R28,
R45, with the output registers' own bounds), what an RX step left and what it shows, and runs of
bytes. -/

namespace Sys2Proof.Machine

/-! ### The invariant -/

/-- The table of R28 with the bounds of R45: what each FSM state's in-flight fields hold. The
differences of the spec are over exact integers and written as sums (R8). -/
structure RxInFlight.FieldsOk (r : RxInFlight) : Prop where
  /-- PREAMBLE: every field holds its cleared value. -/
  preamble : r.rxState = .preamble → r.rxLen = 0 ∧ r.rxType = 0 ∧ r.rxKind = 0 ∧ r.rxCnt = 0
  /-- LENGTH: as PREAMBLE, and the accumulator is the seed. -/
  length : r.rxState = .length →
    r.rxLen = 0 ∧ r.rxType = 0 ∧ r.rxKind = 0 ∧ r.rxCnt = 0 ∧ r.rxAcc = 0xFF
  /-- PACKET_TYPE: `rx_len` in 3..255. -/
  packetType : r.rxState = .packetType →
    3 ≤ r.rxLen.toNat ∧ r.rxType = 0 ∧ r.rxKind = 0 ∧ r.rxCnt = 0
  /-- MESSAGE_TYPE: `rx_type` is known. -/
  messageType : r.rxState = .messageType →
    3 ≤ r.rxLen.toNat ∧ r.rxType ∈ Config.knownTypes ∧ r.rxKind = 0 ∧ r.rxCnt = 0
  /-- BODY: `rx_len` in 4..255 and `rx_cnt < rx_len − 3`. -/
  body : r.rxState = .body →
    4 ≤ r.rxLen.toNat ∧ r.rxType ∈ Config.knownTypes ∧ r.rxCnt.toNat + 3 < r.rxLen.toNat
  /-- CHECKSUM: `rx_cnt = rx_len − 3`. -/
  checksum : r.rxState = .checksum →
    3 ≤ r.rxLen.toNat ∧ r.rxType ∈ Config.knownTypes ∧ r.rxCnt.toNat + 3 = r.rxLen.toNat

/-- The accumulator invariant of R27; in BODY and CHECKSUM it says too that every body byte below
`rx_cnt` has been written. -/
structure RxInFlight.AccOk (r : RxInFlight) : Prop where
  packetType : r.rxState = .packetType → r.rxAcc = xorFold 0xFF [r.rxLen]
  messageType : r.rxState = .messageType → r.rxAcc = xorFold 0xFF [r.rxLen, r.rxType]
  bodyOrChecksum : r.rxState = .body ∨ r.rxState = .checksum →
    ∃ body, Memory.readFrom r.rxBody 0 r.rxCnt.toNat = some body ∧
      r.rxAcc = xorFold 0xFF ([r.rxLen, r.rxType, r.rxKind] ++ body)

/-- The RX output registers: a field whose present flag is 0 holds 0x00 (R33), the error code is 0
exactly when no error is held, the count is a body length whose bytes have been written. -/
structure RxOutputs.OutputsOk (o : RxOutputs) : Prop where
  absentPre : o.oRxPreV = false → o.oRxPre = 0
  absentLen : o.oRxLenV = false → o.oRxLen = 0
  absentType : o.oRxTypeV = false → o.oRxType = 0
  absentMsg : o.oRxMsgV = false → o.oRxMsg = 0
  absentCsum : o.oRxCsumV = false → o.oRxCsum = 0
  errorCode : o.oRxErr = .none ↔ o.oRxRes ≠ .error
  pulse : o.oRxValid = true → o.oRxRes ≠ .none
  count : o.oRxCnt.toNat ≤ Config.bodyMax
  written : (Memory.readFrom o.oRxBody 0 o.oRxCnt.toNat).isSome = true

/-- The TX output registers: at most 257 bytes, all written, none after InvalidFrame (R38). -/
structure TxOutputs.OutputsOk (o : TxOutputs) : Prop where
  count : o.oTxLen.toNat ≤ Config.frameMax
  invalid : o.oTxStatus = .invalidFrame → o.oTxLen = 0
  written : (Memory.readFrom o.oTxBuf 0 o.oTxLen.toNat).isSome = true

/-- The invariant of every reachable state. -/
structure State.Inv (s : State) : Prop where
  fields : s.rx.FieldsOk
  acc : s.rx.AccOk
  /-- A stored kind is one that the strap accepts (R149, R150). -/
  kind : s.rx.rxState = .body ∨ s.rx.rxState = .checksum →
    s.rx.rxKind ∈ Config.knownKinds ∨ s.lenientKind = true
  rxOut : s.rxOut.OutputsOk
  tx : s.tx.OutputsOk
  /-- Each buffer is canonical, with indexes in its range (R61). -/
  rxBodyWf : Memory.wf s.rx.rxBody Config.bodyMax = true
  oRxBodyWf : Memory.wf s.rxOut.oRxBody Config.bodyMax = true
  oTxBufWf : Memory.wf s.tx.oTxBuf Config.frameMax = true

/-! ### What an operation left and what it shows -/

/-- Nothing but RXD's registers differs: TXS, the strap and the host's script are as before. -/
def State.SameOutsideRx (s t : State) : Prop :=
  t.tx = s.tx ∧ t.lenientKind = s.lenientKind ∧ t.script = s.script

/-- Every RXD output register but `o_rx_valid` is as before, and `o_rx_valid` is 0 (R140, NONE). -/
def State.RxQuiet (s t : State) : Prop :=
  t.rxOut = { s.rxOut with oRxValid := false }

/-- The in-flight registers hold the values that `Clear()` writes, the body buffer is as before
(R141). -/
def State.RxCleared (s t : State) : Prop :=
  t.rx.rxState = .preamble ∧ t.rx.rxLen = 0x00 ∧ t.rx.rxType = 0x00 ∧ t.rx.rxKind = 0x00 ∧
  t.rx.rxCnt = 0 ∧ t.rx.rxAcc = 0xFF ∧ t.rx.rxBody = s.rx.rxBody

/-- One field of the record that `Show` writes: its flag and its value (R140). -/
def showsField (flag : Bool) (value : Byte) (field : Option Byte) : Prop :=
  match field with
  | some x => flag = true ∧ value = x
  | none => flag = false ∧ value = 0x00

/-- The field group shows the record `p`, and the elements of `o_rx_body` beyond its body are as in
`s` (R140, `Show`). -/
structure State.Shows (s t : State) (p : FramePart) : Prop where
  pre : showsField t.rxOut.oRxPreV t.rxOut.oRxPre p.pre
  len : showsField t.rxOut.oRxLenV t.rxOut.oRxLen p.len
  type : showsField t.rxOut.oRxTypeV t.rxOut.oRxType p.type
  kind : showsField t.rxOut.oRxMsgV t.rxOut.oRxMsg p.kind
  csum : showsField t.rxOut.oRxCsumV t.rxOut.oRxCsum p.csum
  cnt : t.rxOut.oRxCnt.toNat = p.body.length
  body : ∀ i, i < p.body.length → Memory.read t.rxOut.oRxBody i = p.body[i]?
  rest : ∀ i, p.body.length ≤ i → Memory.read t.rxOut.oRxBody i = Memory.read s.rxOut.oRxBody i

/-- The outcome `PACKET(f)` of byte `b` from `s` is in `t` (R140), and `Clear()` is done (R141). -/
structure State.Delivers (s t : State) (b : Byte) (f : Frame) : Prop where
  valid : t.rxOut.oRxValid = true
  res : t.rxOut.oRxRes = .packet
  err : t.rxOut.oRxErr = .none
  byte : t.rxOut.oRxByte = b
  shows : s.Shows t f.toPart
  cleared : s.RxCleared t
  outside : s.SameOutsideRx t

/-- The outcome `ERROR(e, b, p)` from `s` is in `t` (R140, R224), and `Clear()` is done (R141). -/
structure State.Raises (s t : State) (e : RxError) (b : Byte) (p : FramePart) : Prop where
  valid : t.rxOut.oRxValid = true
  res : t.rxOut.oRxRes = .error
  err : t.rxOut.oRxErr = e
  byte : t.rxOut.oRxByte = b
  shows : s.Shows t p
  cleared : s.RxCleared t
  outside : s.SameOutsideRx t

/-! ### Runs -/

/-- Feed bytes to RXD, one RX.STEP each (R69); stops at the first fault or refusal. -/
def feed (bytes : List Byte) (s : State) : Result :=
  runInstrs exec (bytes.map (Instr.rxStep false)) s

/-- Feeding `bytes` yields NONE on every byte but the last, and the last leaves the PACKET of the frame
`f` in the output registers with RXD back in PREAMBLE (R157). -/
def ParsesTo (bytes : List Byte) (s : State) (f : Frame) : Prop :=
  (∀ k, 0 < k → k < bytes.length →
    ∃ u, feed (bytes.take k) s = .next u ∧ u.rxOut.oRxValid = false) ∧
  ∃ t, feed bytes s = .next t ∧ t.rxOut.oRxValid = true ∧ t.rxOut.oRxRes = .packet ∧
    t.rxOut.oRxErr = .none ∧ t.shownFields = some f.toPart ∧ t.rx.rxState = .preamble

/-- Two in-flight states that no later byte tells apart: the same FSM state and fields, the same body
bytes below the count, and, outside PREAMBLE, the same accumulator (R28, R160). -/
structure RxInFlight.Agrees (r q : RxInFlight) : Prop where
  rxState : r.rxState = q.rxState
  rxLen : r.rxLen = q.rxLen
  rxType : r.rxType = q.rxType
  rxKind : r.rxKind = q.rxKind
  rxCnt : r.rxCnt = q.rxCnt
  rxBody : Memory.readFrom r.rxBody 0 r.rxCnt.toNat = Memory.readFrom q.rxBody 0 q.rxCnt.toNat
  rxAcc : r.rxState ≠ .preamble → r.rxAcc = q.rxAcc

/-- Two states that show the same outcome of their last byte: none in both, or the same result, error,
byte and field group (R140, R160). -/
def State.SameOutcome (s t : State) : Prop :=
  s.rxOut.oRxValid = t.rxOut.oRxValid ∧
  (s.rxOut.oRxValid = true →
    s.rxOut.oRxRes = t.rxOut.oRxRes ∧ s.rxOut.oRxErr = t.rxOut.oRxErr ∧
    s.rxOut.oRxByte = t.rxOut.oRxByte ∧ s.shownFields = t.shownFields)

end Sys2Proof.Machine
end

