-- ==== Sys2Proof/Certificates/Slice0/Obligations.lean ====
section
/-! DEFINITION. The statements for the provers, from the numbered rules of spec/. -/

open Sys2Proof Sys2Proof.Machine

/-! ### Reset and the invariant -/

/-- R200, R43: RESET completes from every state, whatever the other strobes; every register takes its
reset value, the strap and the host's script stay, and a second RESET changes nothing. Both sides decode
it from every port word with bit 2 set. The buffers are unspecified after reset (R43), and nothing is
said of them here. -/
def Obligations.ResetSetsEveryRegister : Prop :=
  ∀ (rx tx : Bool) (s : State), ∃ t, exec (.reset rx tx) s = .next t ∧
    t.rx.rxState = .preamble ∧ t.rx.rxLen = 0x00 ∧ t.rx.rxType = 0x00 ∧ t.rx.rxKind = 0x00 ∧
    t.rx.rxCnt = 0 ∧ t.rx.rxAcc = 0xFF ∧
    t.rxOut.oRxValid = false ∧ t.rxOut.oRxRes.code = 0 ∧ t.rxOut.oRxErr.code = 0 ∧
    t.rxOut.oRxByte = 0x00 ∧
    t.rxOut.oRxPreV = false ∧ t.rxOut.oRxLenV = false ∧ t.rxOut.oRxTypeV = false ∧
    t.rxOut.oRxMsgV = false ∧ t.rxOut.oRxCsumV = false ∧
    t.rxOut.oRxPre = 0x00 ∧ t.rxOut.oRxLen = 0x00 ∧ t.rxOut.oRxType = 0x00 ∧
    t.rxOut.oRxMsg = 0x00 ∧ t.rxOut.oRxCsum = 0x00 ∧ t.rxOut.oRxCnt = 0 ∧
    t.tx.oTxValid = false ∧ t.tx.oTxStatus.code = 0 ∧ t.tx.oTxLen = 0 ∧
    t.lenientKind = s.lenientKind ∧ t.script = s.script ∧
    (∀ rx' tx', exec (.reset rx' tx') t = .next t) ∧
    ∀ (side : Side) (b : Byte) (d : TxDescriptor),
      decodePort side (portWord true rx tx) b d = some (.reset rx tx)

/-- R43, R44, R41: the model's reset state is what RESET leaves, with the strap at its default 0, no
edge pending, and no value in any buffer element. That the buffers have no value is the model's reading
of R44 (log 3); that the script is empty is the model's own (log 1). -/
def Obligations.ResetStateIsWhatResetLeaves : Prop :=
  (∀ (rx tx : Bool) (s : State),
    exec (.reset rx tx) s =
      .next { State.reset with lenientKind := s.lenientKind, script := s.script }) ∧
  State.reset.lenientKind = false ∧ State.reset.script = [] ∧
  ∀ i, Memory.read State.reset.rx.rxBody i = none ∧
    Memory.read State.reset.rxOut.oRxBody i = none ∧ Memory.read State.reset.tx.oTxBuf i = none

/-- R45 with R27, R28 and the bounds of the output registers: the invariant holds right after reset. -/
def Obligations.InvariantAtReset : Prop :=
  State.reset.Inv

/-- R45 with R27, R28 and the bounds of the output registers: every step keeps the invariant, from
every state that has it. -/
def Obligations.InvariantKeptByEveryStep : Prop :=
  ∀ s t : State, s.Inv → step s = .next t → t.Inv

/-- R45: from reset, under either strap and any script, every state a run reaches has the invariant, with
the bounds on the count that it implies written out, and its FSM code is neither 6 nor 7. -/
def Obligations.ReachableStatesHaveInvariant : Prop :=
  ∀ (lenient : Bool) (script : List Edge) (n : Nat) (t : State),
    Host.Core.run Sys2Proof.core n
      { State.reset with lenientKind := lenient, script := script } = .next t →
    t.Inv ∧ t.rx.rxCnt.toNat ≤ 252 ∧
    (t.rx.rxState = .body → (t.rx.rxCnt.toNat : Int) < (t.rx.rxLen.toNat : Int) - 3) ∧
    (t.rx.rxState = .checksum → (t.rx.rxCnt.toNat : Int) = (t.rx.rxLen.toNat : Int) - 3) ∧
    t.oRxState ≠ 6 ∧ t.oRxState ≠ 7

/-- R260: one or more edges with reset, all with the same strap and whatever other strobes, leave from
any state the reset values of R43 with that strap. That the three buffers then have no value, which the
equality with `State.reset` also says, is the model's reading of R43 and R44 (log 3). -/
def Obligations.BootLeavesResetState : Prop :=
  ∀ (s : State) (l : Bool) (boot rest : List Edge), boot ≠ [] →
    (∀ e ∈ boot, e.rst = true ∧ e.lenientKind = l) → s.script = boot ++ rest →
    Host.Core.run Sys2Proof.core boot.length s =
      .next { State.reset with lenientKind := l, script := rest }

/-! ### Encodings -/

/-- For every well-formed instruction, decoding its encoding gives it back, with every operand and every
free bit of its word. -/
def Obligations.EncodeThenDecode : Prop :=
  ∀ i : Instr, i.wellFormed = true → decodeWord i.side (encode i) = some i

/-- R91: every 12-bit word matches a first row, so the table is total; the row's instruction is well
formed and its encoding is the word. -/
def Obligations.EveryRxStepWordIsOneInstruction : Prop :=
  ∀ w : BitVec 12, ∃ i, decodeRxStep w = some i ∧ i.wellFormed = true ∧ encode i = .rxStep w

/-- R90, R91: the layout of the RXSTEP word, and the row that wins for every policy bit, state code and
byte. -/
def Obligations.RxStepTableByStateAndByte : Prop :=
  ∀ (l : Bool) (c : BitVec 3) (b : Byte),
    (rxStepWord l c b).toNat = (if l then 2048 else 0) + c.toNat * 256 + b.toNat ∧
    decodeRxStep (rxStepWord l c b) = some
      (if c = 0 then
        if b = 0x01 then .rxPreSof l else if b = 0x06 then .rxPreAck l
        else if b = 0x15 then .rxPreNak l else if b = 0x18 then .rxPreCan l else .rxPreBad l b
      else if c = 1 then
        if b = 0x00 ∨ b = 0x01 then .rxLenBadA l b else if b = 0x02 then .rxLenBadB l
        else .rxLenOk l b
      else if c = 2 then
        if b = 0x00 then .rxTypeReq l else if b = 0x01 then .rxTypeRsp l else .rxTypeBad l b
      else if c = 3 then
        if b = 0x00 then .rxKindK00 l else if b = 0x02 then .rxKindK02 l
        else if b = 0x04 then .rxKindK04 l else if b = 0x05 then .rxKindK05 l
        else if b = 0x07 then .rxKindK07 l else if b = 0x13 then .rxKindK13 l
        else if b = 0x49 then .rxKindK49 l
        else if l = true then .rxKindUnkLenient b else .rxKindUnkStrict b
      else if c = 4 then .rxBody l b
      else if c = 5 then .rxCsum l b
      else if c = 6 then .rxRsv6 l b
      else .rxRsv7 l b)

/-- R89: the port word's value, and what each side decodes from it: RESET first, then one RX row and one
TX row. -/
def Obligations.PortWordBySide : Prop :=
  ∀ (rst rx tx : Bool) (b : Byte) (d : TxDescriptor),
    (portWord rst rx tx).toNat =
      (if rst then 4 else 0) + (if rx then 2 else 0) + (if tx then 1 else 0) ∧
    decodePort .rx (portWord rst rx tx) b d = some
      (if rst = true then .reset rx tx else if rx = true then .rxStep tx b else .rxIdle tx) ∧
    decodePort .tx (portWord rst rx tx) b d = some
      (if rst = true then .reset rx tx else if tx = true then .txFrame rx d else .txIdle rx)

/-- R94: INIT wins over ABSORB, ABSORB takes the byte, neither strobe is HOLD. -/
def Obligations.CsuWordDecodes : Prop :=
  ∀ (init absorb : Bool) (byte : Byte),
    decodeCsu (BitVec.ofBool init ++ BitVec.ofBool absorb) byte =
      if init = true then .csuInit absorb else if absorb = true then .csuAbsorb byte else .csuHold

/-- Ten PORT and RXSTEP words written out from R89 and R91, and a number above 12 bits, which is refused.
That a number of 8 bits is read as a PORT word and one of 16 bits as an RXSTEP word, that one row is named
for a PORT word, and that the data inputs are 0, are the model's choice (log 2). -/
def Obligations.SampleWordsDecode : Prop :=
  decodeTableWord 8 0b100 = some (.reset false false) ∧
  decodeTableWord 8 0b010 = some (.rxStep false 0) ∧
  decodeTableWord 8 0b001 = some (.txFrame false TxDescriptor.zero) ∧
  decodeTableWord 16 0x001 = some (.rxPreSof false) ∧
  decodeTableWord 16 0x818 = some (.rxPreCan true) ∧
  decodeTableWord 16 0x101 = some (.rxLenBadA false 0x01) ∧
  decodeTableWord 16 0x1FF = some (.rxLenOk false 0xFF) ∧
  decodeTableWord 16 0xB99 = some (.rxKindUnkLenient 0x99) ∧
  decodeTableWord 16 0x399 = some (.rxKindUnkStrict 0x99) ∧
  decodeTableWord 16 0x5FE = some (.rxCsum false 0xFE) ∧
  decodeTableWord 16 0x1000 = none

/-- R92, R37, R33, R221: the codes of the FSM states, which `o_rx_state` shows, and of the result, error
and status outputs. -/
def Obligations.OutputCodes : Prop :=
  (RxState.preamble.code = 0 ∧ RxState.length.code = 1 ∧ RxState.packetType.code = 2 ∧
    RxState.messageType.code = 3 ∧ RxState.body.code = 4 ∧ RxState.checksum.code = 5) ∧
  (∀ s : State, s.oRxState = s.rx.rxState.code ∧
    (s.oRxState = 0 ↔ s.rx.rxState = .preamble)) ∧
  (RxResult.none.code = 0 ∧ RxResult.packet.code = 1 ∧ RxResult.error.code = 2) ∧
  (RxError.none.code = 0 ∧ RxError.unknownPreamble.code = 1 ∧ RxError.badLength.code = 2 ∧
    RxError.unknownPacketType.code = 3 ∧ RxError.unknownMessageType.code = 4 ∧
    RxError.badChecksum.code = 5) ∧
  TxStatus.ok.code = 0 ∧ TxStatus.invalidFrame.code = 6

/-! ### The step -/

/-- Derived from R89, R203, R204 and R261: a step takes the next edge of the script and runs what its port
word decodes to: RESET alone, or the RX operation and then the TX operation, each on the state with that
edge gone from the script. An edge that moves the strap without reset is refused. Three things in it are the
model's: the state takes the strap of every edge with reset (log 4, DESIGN CHOICE); the RX operation runs
first and a stop of either operation stops the step (log 10, DEDUCED); and RESET, a row of both sides, runs
once (log 12, DEDUCED). -/
def Obligations.StepRunsDecodedEdge : Prop :=
  ∀ (s : State) (e : Edge) (rest : List Edge), s.script = e :: rest →
    (e.rst = true →
      decodePort .rx e.portWord e.iRxByte e.iTx = some (.reset e.iRxValid e.iTxReq) ∧
      step s = exec (.reset e.iRxValid e.iTxReq)
        { s with script := rest, lenientKind := e.lenientKind }) ∧
    (e.rst = false → e.lenientKind = s.lenientKind →
      ∃ i j, decodePort .rx e.portWord e.iRxByte e.iTx = some i ∧
        decodePort .tx e.portWord e.iRxByte e.iTx = some j ∧
        i = (if e.iRxValid = true then .rxStep e.iTxReq e.iRxByte else .rxIdle e.iTxReq) ∧
        j = (if e.iTxReq = true then .txFrame e.iRxValid e.iTx else .txIdle e.iRxValid) ∧
        step s = match exec i { s with script := rest } with
          | .next t => exec j t
          | .fault r => .fault r
          | .refused r => .refused r) ∧
    (e.rst = false → e.lenientKind ≠ s.lenientKind → step s = .refused .strapChanged)

/-- The model's choice of log 1, no rule of the spec: where the script has ended, the next edge has no
strobe, so both agents idle. -/
def Obligations.StepWithNoScriptIdles : Prop :=
  ∀ s : State, s.script = [] → ∃ t, step s = .next t ∧
    t.rx = s.rx ∧ t.rxOut = { s.rxOut with oRxValid := false } ∧
    t.tx = { s.tx with oTxValid := false } ∧ t.lenientKind = s.lenientKind ∧ t.script = []

/-- R261: on an edge with `rst` = 0 the strap is stable: a change is refused, and a step that answers a
next state with another strap took an edge with `rst` = 1. -/
def Obligations.StrapMovesOnlyUnderReset : Prop :=
  (∀ (s : State) (e : Edge) (rest : List Edge), s.script = e :: rest → e.rst = false →
    e.lenientKind ≠ s.lenientKind → step s = .refused .strapChanged) ∧
  ∀ s t : State, step s = .next t → t.lenientKind ≠ s.lenientKind →
    ∃ e rest, s.script = e :: rest ∧ e.rst = true ∧ t.lenientKind = e.lenientKind

/-- R70: an RX operation reads and writes no register of TXS, a TX operation reads and writes no register
of RXD, and their steps commute. -/
def Obligations.RxAndTxCommute : Prop :=
  ∀ (i j : Instr), (∃ tx b, i = .rxStep tx b ∨ i = .rxIdle tx) →
    (∃ rx d, j = .txFrame rx d ∨ j = .txIdle rx) →
    ∀ s : State,
      runInstrs exec [i, j] s = runInstrs exec [j, i] s ∧
      (∀ x : TxOutputs, exec i { s with tx := x } =
        match exec i s with
        | .next t => .next { t with tx := x }
        | .fault r => .fault r
        | .refused r => .refused r) ∧
      (∀ (r : RxInFlight) (o : RxOutputs), exec j { s with rx := r, rxOut := o } =
        match exec j s with
        | .next t => .next { t with rx := r, rxOut := o }
        | .fault q => .fault q
        | .refused q => .refused q)

/-- R231, R140: from every state with the invariant, every edge that keeps the strap or asserts reset is
accepted: the step answers a next state. -/
def Obligations.EveryEdgeIsAccepted : Prop :=
  ∀ s : State, s.Inv →
    (∀ e rest, s.script = e :: rest → e.rst = true ∨ e.lenientKind = s.lenientKind) →
    ∃ t, step s = .next t

/-- R34, R40: after any step, `o_tx_valid` is 1 exactly when the edge carried a TX request and no reset;
`o_rx_valid` is 0 after an edge with reset or without a byte; after a byte it is 1 only with a result
other than NONE and RXD left as `Clear()` leaves it. The other RX output registers hold their values
where there is neither an outcome nor a reset. -/
def Obligations.PulsesFollowTheEdge : Prop :=
  ∀ s t : State, step s = .next t →
    (t.tx.oTxValid = true ↔ s.nextEdge.rst = false ∧ s.nextEdge.iTxReq = true) ∧
    (s.nextEdge.rst = true → t.rxOut.oRxValid = false) ∧
    (s.nextEdge.rst = false → s.nextEdge.iRxValid = false →
      t.rxOut = { s.rxOut with oRxValid := false }) ∧
    (s.nextEdge.rst = false → s.nextEdge.iRxValid = true →
      (t.rxOut.oRxValid = false → t.rxOut = { s.rxOut with oRxValid := false }) ∧
      (t.rxOut.oRxValid = true →
        t.rxOut.oRxRes ≠ .none ∧ t.rxOut.oRxByte = s.nextEdge.iRxByte ∧ s.RxCleared t))

/-- R69: a run of edges that each present one byte is the left fold of the RX step over the bytes, with
TXS idle beside it. -/
def Obligations.RunOfBytesIsFold : Prop :=
  ∀ (s : State) (bytes : List Byte) (rest : List Edge), bytes ≠ [] →
    s.script = bytes.map (rxEdge s.lenientKind) ++ rest →
    Host.Core.run Sys2Proof.core bytes.length s =
      match feed bytes { s with script := rest } with
      | .next t => .next { t with tx := { t.tx with oTxValid := false } }
      | .fault r => .fault r
      | .refused r => .refused r

/-! ### Checksum unit -/

/-- R122, R123, R124: the three CSU operations complete from every state and write the accumulator
alone; each is what its CSU word decodes to. -/
def Obligations.CsuOperationsWriteAccumulator : Prop :=
  ∀ s : State,
    (∀ absorb, exec (.csuInit absorb) s = .next { s with rx := { s.rx with rxAcc := 0xFF } }) ∧
    (∀ b, exec (.csuAbsorb b) s =
      .next { s with rx := { s.rx with rxAcc := s.rx.rxAcc ^^^ b } }) ∧
    exec .csuHold s = .next s ∧
    (∀ (absorb : Bool) (b : Byte), decodeCsu (1#1 ++ BitVec.ofBool absorb) b = .csuInit absorb) ∧
    (∀ b, decodeCsu 0b01 b = .csuAbsorb b) ∧ ∀ b, decodeCsu 0b00 b = .csuHold

/-- R126: INIT, then ABSORB of length, type, kind and the body bytes, with any HOLDs between, leaves the
checksum in the accumulator and nothing else changed. -/
def Obligations.CsuRunGivesChecksum : Prop :=
  ∀ (s : State) (ops : List Instr) (absorb : Bool) (len type kind : Byte) (body : List Byte),
    ops.filter (fun i => decide (i ≠ .csuHold)) =
      .csuInit absorb :: ([len, type, kind] ++ body).map Instr.csuAbsorb →
    runInstrs exec ops s =
      .next { s with rx := { s.rx with rxAcc := checksum len type kind body } }

/-- R120: the checksum is 0xFF with length, type, kind and every body byte exclusive-ored in. -/
def Obligations.ChecksumIsXor : Prop :=
  ∀ (len type kind : Byte) (body : List Byte),
    checksum len type kind body = 0xFF ^^^ len ^^^ type ^^^ kind ^^^ body.foldl (· ^^^ ·) 0

/-- R121: the order of the bytes and the zero bytes do not matter, two bodies' checksums differ by the
difference of their folds, every change of one byte is detected, and an error pattern is missed exactly
when its fold is 0. -/
def Obligations.ChecksumLaws : Prop :=
  (∀ bytes bytes' : List Byte, bytes.Perm bytes' → xorFold 0xFF bytes = xorFold 0xFF bytes') ∧
  (∀ bytes : List Byte,
    xorFold 0xFF (bytes.filter (fun b => decide (b ≠ 0))) = xorFold 0xFF bytes) ∧
  (∀ (len type kind : Byte) (body body' : List Byte),
    checksum len type kind body ^^^ checksum len type kind body' =
      xorFold 0x00 body ^^^ xorFold 0x00 body') ∧
  (∀ (before after : List Byte) (x y : Byte), x ≠ y →
    xorFold 0xFF (before ++ x :: after) ≠ xorFold 0xFF (before ++ y :: after)) ∧
  (∀ bytes errors : List Byte, bytes.length = errors.length →
    (xorFold 0xFF (List.zipWith (· ^^^ ·) bytes errors) = xorFold 0xFF bytes ↔
      xorFold 0x00 errors = 0x00))

/-- R127: a control frame validates, a SOF frame with all fields compares its checksum, and any other
frame is refused. -/
def Obligations.ValidateChecksumCases : Prop :=
  (∀ f : Frame, f.pre = 0x06 ∨ f.pre = 0x15 ∨ f.pre = 0x18 → validateChecksum f = .ok true) ∧
  (∀ (len type kind c : Byte) (body : List Byte),
    validateChecksum
        { pre := 0x01, len := some len, type := some type, kind := some kind, body := body,
          csum := some c } =
      .ok (decide (c = checksum len type kind body))) ∧
  (∀ f : Frame, f.pre = 0x01 → f.len = none ∨ f.type = none ∨ f.kind = none ∨ f.csum = none →
    validateChecksum f = .error .checksumNotDefined) ∧
  (∀ f : Frame, f.pre ∉ ([0x01, 0x06, 0x15, 0x18] : List Byte) →
    validateChecksum f = .error .checksumNotDefined)

/-- R128, R129: for a structured frame with all fields, the checksum is the fold of the serialized bytes
between preamble and checksum; the frame validates exactly when that is the last byte, and exactly when
the fold of all bytes after the preamble is 0xFF. -/
def Obligations.WholeFrameCheckOnBytes : Prop :=
  ∀ (len type kind c : Byte) (body : List Byte),
    let f : Frame := { pre := 0x01, len := some len, type := some type, kind := some kind,
                       body := body, csum := some c }
    let bytes := serialize f
    (bytes.drop 1).dropLast = [len, type, kind] ++ body ∧
    bytes.getLast? = some c ∧
    xorFold 0xFF (bytes.drop 1).dropLast = checksum len type kind body ∧
    (validateChecksum f = .ok true ↔ some (xorFold 0xFF (bytes.drop 1).dropLast) = bytes.getLast?) ∧
    (validateChecksum f = .ok true ↔ xorFold 0x00 (bytes.drop 1) = 0xFF)

/-- R27, R94: the accumulator that an RX rule leaves is the one that the CSU operation it drives leaves:
INIT at SOF, ABSORB of the byte at LENGTH, type, kind and body. That the rows and the CSU instructions run
from every state is the model's choice (log 6, log 7). -/
def Obligations.RxRulesDriveTheCsu : Prop :=
  ∀ (l : Bool) (b : Byte) (s t u : State),
    (exec (.rxPreSof l) s = .next t → exec (.csuInit false) s = .next u →
      t.rx.rxAcc = u.rx.rxAcc) ∧
    (exec (.csuAbsorb b) s = .next u →
      ∀ i ∈ [Instr.rxLenOk l b, Instr.rxKindUnkLenient b, Instr.rxBody l b],
        exec i s = .next t → t.rx.rxAcc = u.rx.rxAcc) ∧
    (exec (.csuAbsorb 0x01) s = .next u → exec (.rxTypeRsp l) s = .next t →
      t.rx.rxAcc = u.rx.rxAcc) ∧
    (exec (.csuAbsorb 0x13) s = .next u → exec (.rxKindK13 l) s = .next t →
      t.rx.rxAcc = u.rx.rxAcc)

/-! ### RX rules

Each says which words the row has, what the row does, and that RX.STEP is that row in its FSM state. What
the rule gives is the row with its own bytes and strap in its own FSM state; that the row's instruction does
the same from every other FSM state, and with every byte that its constructor can carry, is the model's
choice of log 6. -/

/-- R142, in PREAMBLE: RX.PRE.SOF. That it does so from every other FSM state too is the model's choice
(log 6). -/
def Obligations.SofStartsFrame : Prop :=
  (∀ l : Bool, decodeRxStep (rxStepWord l 0 0x01) = some (.rxPreSof l)) ∧
  (∀ (l : Bool) (s : State), ∃ t, exec (.rxPreSof l) s = .next t ∧
    t.rx.rxState = .length ∧ t.rx.rxCnt = 0 ∧ t.rx.rxAcc = 0xFF ∧
    t.rx.rxLen = s.rx.rxLen ∧ t.rx.rxType = s.rx.rxType ∧ t.rx.rxKind = s.rx.rxKind ∧
    t.rx.rxBody = s.rx.rxBody ∧ s.RxQuiet t ∧ s.SameOutsideRx t) ∧
  ∀ (tx : Bool) (s : State), s.rx.rxState = .preamble →
    exec (.rxStep tx 0x01) s = exec (.rxPreSof s.lenientKind) s

/-- R143, in PREAMBLE: RX.PRE.ACK, RX.PRE.NAK and RX.PRE.CAN. That they do so from every other FSM state
too is the model's choice (log 6). -/
def Obligations.ControlByteDeliversFrame : Prop :=
  (∀ l : Bool, decodeRxStep (rxStepWord l 0 0x06) = some (.rxPreAck l) ∧
    decodeRxStep (rxStepWord l 0 0x15) = some (.rxPreNak l) ∧
    decodeRxStep (rxStepWord l 0 0x18) = some (.rxPreCan l)) ∧
  (∀ (l : Bool) (s : State),
    (∃ t, exec (.rxPreAck l) s = .next t ∧ s.Delivers t 0x06
      { pre := 0x06, len := none, type := none, kind := none, body := [], csum := none }) ∧
    (∃ t, exec (.rxPreNak l) s = .next t ∧ s.Delivers t 0x15
      { pre := 0x15, len := none, type := none, kind := none, body := [], csum := none }) ∧
    (∃ t, exec (.rxPreCan l) s = .next t ∧ s.Delivers t 0x18
      { pre := 0x18, len := none, type := none, kind := none, body := [], csum := none })) ∧
  ∀ (tx : Bool) (s : State), s.rx.rxState = .preamble →
    exec (.rxStep tx 0x06) s = exec (.rxPreAck s.lenientKind) s ∧
    exec (.rxStep tx 0x15) s = exec (.rxPreNak s.lenientKind) s ∧
    exec (.rxStep tx 0x18) s = exec (.rxPreCan s.lenientKind) s

/-- R144, in PREAMBLE on a byte that is no preamble: RX.PRE.BAD. That it does so from every other FSM
state, and carrying any other byte, is the model's choice (log 6). -/
def Obligations.OtherPreambleRaises : Prop :=
  (∀ (l : Bool) (b : Byte), b ∉ ([0x01, 0x06, 0x15, 0x18] : List Byte) →
    decodeRxStep (rxStepWord l 0 b) = some (.rxPreBad l b)) ∧
  (∀ (l : Bool) (b : Byte) (s : State), ∃ t, exec (.rxPreBad l b) s = .next t ∧
    s.Raises t .unknownPreamble b
      { pre := none, len := none, type := none, kind := none, body := [], csum := none }) ∧
  ∀ (tx : Bool) (b : Byte) (s : State), s.rx.rxState = .preamble →
    b ∉ ([0x01, 0x06, 0x15, 0x18] : List Byte) →
    exec (.rxStep tx b) s = exec (.rxPreBad s.lenientKind b) s

/-- R145, in LENGTH on 0x00, 0x01 and 0x02: RX.LEN.BAD.A and RX.LEN.BAD.B. That they do so from every
other FSM state, and RX.LEN.BAD.A carrying any other byte, is the model's choice (log 6). -/
def Obligations.ShortLengthRaises : Prop :=
  (∀ l : Bool, decodeRxStep (rxStepWord l 1 0x00) = some (.rxLenBadA l 0x00) ∧
    decodeRxStep (rxStepWord l 1 0x01) = some (.rxLenBadA l 0x01) ∧
    decodeRxStep (rxStepWord l 1 0x02) = some (.rxLenBadB l)) ∧
  (∀ (l : Bool) (b : Byte) (s : State), ∃ t, exec (.rxLenBadA l b) s = .next t ∧
    s.Raises t .badLength b
      { pre := some 0x01, len := some b, type := none, kind := none, body := [],
        csum := none }) ∧
  (∀ (l : Bool) (s : State), ∃ t, exec (.rxLenBadB l) s = .next t ∧
    s.Raises t .badLength 0x02
      { pre := some 0x01, len := some 0x02, type := none, kind := none, body := [],
        csum := none }) ∧
  ∀ (tx : Bool) (s : State), s.rx.rxState = .length →
    exec (.rxStep tx 0x00) s = exec (.rxLenBadA s.lenientKind 0x00) s ∧
    exec (.rxStep tx 0x01) s = exec (.rxLenBadA s.lenientKind 0x01) s ∧
    exec (.rxStep tx 0x02) s = exec (.rxLenBadB s.lenientKind) s

/-- R146, in LENGTH on a byte of at least 3: RX.LEN.OK. That it does so from every other FSM state, and
carrying 0x00, 0x01 or 0x02, is the model's choice (log 6). -/
def Obligations.LengthIsStored : Prop :=
  (∀ (l : Bool) (b : Byte), 3 ≤ b.toNat →
    decodeRxStep (rxStepWord l 1 b) = some (.rxLenOk l b)) ∧
  (∀ (l : Bool) (b : Byte) (s : State), ∃ t, exec (.rxLenOk l b) s = .next t ∧
    t.rx.rxState = .packetType ∧ t.rx.rxLen = b ∧ t.rx.rxAcc = s.rx.rxAcc ^^^ b ∧
    t.rx.rxType = s.rx.rxType ∧ t.rx.rxKind = s.rx.rxKind ∧ t.rx.rxCnt = s.rx.rxCnt ∧
    t.rx.rxBody = s.rx.rxBody ∧ s.RxQuiet t ∧ s.SameOutsideRx t) ∧
  ∀ (tx : Bool) (b : Byte) (s : State), s.rx.rxState = .length → 3 ≤ b.toNat →
    exec (.rxStep tx b) s = exec (.rxLenOk s.lenientKind b) s

/-- R147, in PACKET_TYPE: RX.TYPE.REQ and RX.TYPE.RSP. That they do so from every other FSM state too is
the model's choice (log 6). -/
def Obligations.KnownTypeIsStored : Prop :=
  (∀ l : Bool, decodeRxStep (rxStepWord l 2 0x00) = some (.rxTypeReq l) ∧
    decodeRxStep (rxStepWord l 2 0x01) = some (.rxTypeRsp l)) ∧
  (∀ (l : Bool) (s : State),
    ∀ x ∈ [(Instr.rxTypeReq l, (0x00 : Byte)), (Instr.rxTypeRsp l, (0x01 : Byte))],
    ∃ t, exec x.1 s = .next t ∧
      t.rx.rxState = .messageType ∧ t.rx.rxType = x.2 ∧ t.rx.rxAcc = s.rx.rxAcc ^^^ x.2 ∧
      t.rx.rxLen = s.rx.rxLen ∧ t.rx.rxKind = s.rx.rxKind ∧ t.rx.rxCnt = s.rx.rxCnt ∧
      t.rx.rxBody = s.rx.rxBody ∧ s.RxQuiet t ∧ s.SameOutsideRx t) ∧
  ∀ (tx : Bool) (s : State), s.rx.rxState = .packetType →
    exec (.rxStep tx 0x00) s = exec (.rxTypeReq s.lenientKind) s ∧
    exec (.rxStep tx 0x01) s = exec (.rxTypeRsp s.lenientKind) s

/-- R148, in PACKET_TYPE on a byte that is no known type: RX.TYPE.BAD. That it does so from every other FSM
state, and carrying 0x00 or 0x01, is the model's choice (log 6). -/
def Obligations.UnknownTypeRaises : Prop :=
  (∀ (l : Bool) (b : Byte), b ≠ 0x00 → b ≠ 0x01 →
    decodeRxStep (rxStepWord l 2 b) = some (.rxTypeBad l b)) ∧
  (∀ (l : Bool) (b : Byte) (s : State), ∃ t, exec (.rxTypeBad l b) s = .next t ∧
    s.Raises t .unknownPacketType b
      { pre := some 0x01, len := some s.rx.rxLen, type := none, kind := none, body := [],
        csum := none }) ∧
  ∀ (tx : Bool) (b : Byte) (s : State), s.rx.rxState = .packetType → b ≠ 0x00 → b ≠ 0x01 →
    exec (.rxStep tx b) s = exec (.rxTypeBad s.lenientKind b) s

/-- R149, R150, in MESSAGE_TYPE: the seven RX.KIND rows, and RX.KIND.UNK.LENIENT on an unknown kind under the
lenient strap, store the kind in the same way. That they do so from every other FSM state, and
RX.KIND.UNK.LENIENT carrying a known kind or under the strict strap, is the model's choice (log 6). -/
def Obligations.AcceptedKindIsStored : Prop :=
  (∀ l : Bool, decodeRxStep (rxStepWord l 3 0x00) = some (.rxKindK00 l) ∧
    decodeRxStep (rxStepWord l 3 0x02) = some (.rxKindK02 l) ∧
    decodeRxStep (rxStepWord l 3 0x04) = some (.rxKindK04 l) ∧
    decodeRxStep (rxStepWord l 3 0x05) = some (.rxKindK05 l) ∧
    decodeRxStep (rxStepWord l 3 0x07) = some (.rxKindK07 l) ∧
    decodeRxStep (rxStepWord l 3 0x13) = some (.rxKindK13 l) ∧
    decodeRxStep (rxStepWord l 3 0x49) = some (.rxKindK49 l)) ∧
  (∀ b : Byte, b ∉ ([0x00, 0x02, 0x04, 0x05, 0x07, 0x13, 0x49] : List Byte) →
    decodeRxStep (rxStepWord true 3 b) = some (.rxKindUnkLenient b)) ∧
  (∀ (l : Bool) (b : Byte) (s : State),
    ∀ x ∈ [(Instr.rxKindK00 l, (0x00 : Byte)), (Instr.rxKindK02 l, (0x02 : Byte)),
      (Instr.rxKindK04 l, (0x04 : Byte)), (Instr.rxKindK05 l, (0x05 : Byte)),
      (Instr.rxKindK07 l, (0x07 : Byte)), (Instr.rxKindK13 l, (0x13 : Byte)),
      (Instr.rxKindK49 l, (0x49 : Byte)), (Instr.rxKindUnkLenient b, b)],
    ∃ t, exec x.1 s = .next t ∧
      t.rx.rxState = (if s.rx.rxLen = 0x03 then .checksum else .body) ∧
      t.rx.rxKind = x.2 ∧ t.rx.rxAcc = s.rx.rxAcc ^^^ x.2 ∧
      t.rx.rxLen = s.rx.rxLen ∧ t.rx.rxType = s.rx.rxType ∧ t.rx.rxCnt = s.rx.rxCnt ∧
      t.rx.rxBody = s.rx.rxBody ∧ s.RxQuiet t ∧ s.SameOutsideRx t) ∧
  ∀ (tx : Bool) (s : State), s.rx.rxState = .messageType →
    exec (.rxStep tx 0x00) s = exec (.rxKindK00 s.lenientKind) s ∧
    exec (.rxStep tx 0x02) s = exec (.rxKindK02 s.lenientKind) s ∧
    exec (.rxStep tx 0x04) s = exec (.rxKindK04 s.lenientKind) s ∧
    exec (.rxStep tx 0x05) s = exec (.rxKindK05 s.lenientKind) s ∧
    exec (.rxStep tx 0x07) s = exec (.rxKindK07 s.lenientKind) s ∧
    exec (.rxStep tx 0x13) s = exec (.rxKindK13 s.lenientKind) s ∧
    exec (.rxStep tx 0x49) s = exec (.rxKindK49 s.lenientKind) s ∧
    ∀ b, b ∉ ([0x00, 0x02, 0x04, 0x05, 0x07, 0x13, 0x49] : List Byte) →
      s.lenientKind = true → exec (.rxStep tx b) s = exec (.rxKindUnkLenient b) s

/-- R151, in MESSAGE_TYPE on an unknown kind under the strict strap: RX.KIND.UNK.STRICT. That it does so from
every other FSM state, and carrying a known kind or under the lenient strap, is the model's choice
(log 6). -/
def Obligations.UnknownKindRaisesWhenStrict : Prop :=
  (∀ b : Byte, b ∉ ([0x00, 0x02, 0x04, 0x05, 0x07, 0x13, 0x49] : List Byte) →
    decodeRxStep (rxStepWord false 3 b) = some (.rxKindUnkStrict b)) ∧
  (∀ (b : Byte) (s : State), ∃ t, exec (.rxKindUnkStrict b) s = .next t ∧
    s.Raises t .unknownMessageType b
      { pre := some 0x01, len := some s.rx.rxLen, type := some s.rx.rxType, kind := none,
        body := [], csum := none }) ∧
  ∀ (tx : Bool) (b : Byte) (s : State), s.rx.rxState = .messageType → s.lenientKind = false →
    b ∉ ([0x00, 0x02, 0x04, 0x05, 0x07, 0x13, 0x49] : List Byte) →
    exec (.rxStep tx b) s = exec (.rxKindUnkStrict b) s

/-- R152, in BODY: RX.BODY, wherever the count names an element of the buffer. That it does so from every
other FSM state too is the model's choice (log 6). -/
def Obligations.BodyByteIsAppended : Prop :=
  (∀ (l : Bool) (b : Byte), decodeRxStep (rxStepWord l 4 b) = some (.rxBody l b)) ∧
  (∀ (l : Bool) (b : Byte) (s : State), s.rx.rxCnt.toNat ≤ 251 →
    ∃ t, exec (.rxBody l b) s = .next t ∧
      Memory.read t.rx.rxBody s.rx.rxCnt.toNat = some b ∧
      (∀ i, i ≠ s.rx.rxCnt.toNat → Memory.read t.rx.rxBody i = Memory.read s.rx.rxBody i) ∧
      t.rx.rxCnt.toNat = s.rx.rxCnt.toNat + 1 ∧ t.rx.rxAcc = s.rx.rxAcc ^^^ b ∧
      ((s.rx.rxCnt.toNat : Int) + 1 = (s.rx.rxLen.toNat : Int) - 3 →
        t.rx.rxState = .checksum) ∧
      ((s.rx.rxCnt.toNat : Int) + 1 ≠ (s.rx.rxLen.toNat : Int) - 3 → t.rx.rxState = .body) ∧
      t.rx.rxLen = s.rx.rxLen ∧ t.rx.rxType = s.rx.rxType ∧ t.rx.rxKind = s.rx.rxKind ∧
      s.RxQuiet t ∧ s.SameOutsideRx t) ∧
  ∀ (tx : Bool) (b : Byte) (s : State), s.rx.rxState = .body →
    exec (.rxStep tx b) s = exec (.rxBody s.lenientKind b) s

/-- R153, in CHECKSUM: RX.CSUM, wherever the body bytes below the count have been written. That it does so
from every other FSM state too is the model's choice (log 6). -/
def Obligations.ChecksumByteDeliversOrRejects : Prop :=
  (∀ (l : Bool) (b : Byte), decodeRxStep (rxStepWord l 5 b) = some (.rxCsum l b)) ∧
  (∀ (l : Bool) (b : Byte) (s : State) (body : List Byte), s.rx.rxCnt.toNat ≤ 252 →
    body.length = s.rx.rxCnt.toNat →
    (∀ i, i < body.length → Memory.read s.rx.rxBody i = body[i]?) →
    ∃ t, exec (.rxCsum l b) s = .next t ∧
      (b = checksum s.rx.rxLen s.rx.rxType s.rx.rxKind body →
        s.Delivers t b
          { pre := 0x01, len := some s.rx.rxLen, type := some s.rx.rxType,
            kind := some s.rx.rxKind, body := body, csum := some b }) ∧
      (b ≠ checksum s.rx.rxLen s.rx.rxType s.rx.rxKind body →
        s.Raises t .badChecksum b
          { pre := some 0x01, len := some s.rx.rxLen, type := some s.rx.rxType,
            kind := some s.rx.rxKind, body := body, csum := some b })) ∧
  ∀ (tx : Bool) (b : Byte) (s : State), s.rx.rxState = .checksum →
    exec (.rxStep tx b) s = exec (.rxCsum s.lenientKind b) s

/-- R61, R44: where the two buffer rules stop: an index outside `rx_body[0..251]`, and a body byte that
was never written. No run reaches either (R45); that the model stops there, from every FSM state, is its
choice (log 6, log 8). -/
def Obligations.BufferRulesStopOutsideBuffer : Prop :=
  ∀ (l : Bool) (b : Byte) (s : State),
    (252 ≤ s.rx.rxCnt.toNat → exec (.rxBody l b) s = .fault .bodyIndexOutOfRange) ∧
    (252 < s.rx.rxCnt.toNat → exec (.rxCsum l b) s = .fault .bodyIndexOutOfRange) ∧
    (s.rx.rxCnt.toNat ≤ 252 →
      (∃ i, i < s.rx.rxCnt.toNat ∧ Memory.read s.rx.rxBody i = none) →
      exec (.rxCsum l b) s = .refused .unwrittenByte)

/-- R93: RX.RSV6 and RX.RSV7 are refused, they are what every word with state code 6 or 7 decodes to, and
no FSM state has such a code. -/
def Obligations.ReservedCodesAreRefused : Prop :=
  (∀ (l : Bool) (b : Byte) (s : State),
    exec (.rxRsv6 l b) s = .refused .reservedStateCode ∧
    exec (.rxRsv7 l b) s = .refused .reservedStateCode) ∧
  (∀ (l : Bool) (b : Byte), decodeRxStep (rxStepWord l 6 b) = some (.rxRsv6 l b) ∧
    decodeRxStep (rxStepWord l 7 b) = some (.rxRsv7 l b)) ∧
  ∀ st : RxState, st.code ≠ 6 ∧ st.code ≠ 7

/-- R140: from every state with the invariant, RX.STEP completes: it is the row that its word decodes to,
and that row answers a next state. -/
def Obligations.RxStepCompletes : Prop :=
  ∀ (tx : Bool) (b : Byte) (s : State), s.Inv →
    ∃ i t, decodeRxStep (rxStepWord s.lenientKind s.rx.rxState.code b) = some i ∧
      exec (.rxStep tx b) s = exec i s ∧ exec i s = .next t

/-- R156: an RX.STEP that answers a next state yields exactly one outcome: NONE, one PACKET of some frame
or one ERROR, and never a PACKET and an ERROR together. -/
def Obligations.OneOutcomePerByte : Prop :=
  ∀ (tx : Bool) (b : Byte) (s t : State), exec (.rxStep tx b) s = .next t →
    (s.RxQuiet t ∧ s.SameOutsideRx t ∧
      (¬ ∃ f, s.Delivers t b f) ∧ ¬ ∃ e p, s.Raises t e b p) ∨
    (t.rxOut.oRxValid = true ∧ (∃ f, s.Delivers t b f) ∧ ¬ ∃ e p, s.Raises t e b p) ∨
    (t.rxOut.oRxValid = true ∧ (∃ e p, e ≠ .none ∧ s.Raises t e b p) ∧ ¬ ∃ f, s.Delivers t b f)

/-- R159: after any outcome RXD is in PREAMBLE, with the registers as `Clear()` writes them, and the next
byte is decoded by the PREAMBLE rows. -/
def Obligations.OutcomeResynchronizes : Prop :=
  ∀ (tx : Bool) (b : Byte) (s t : State), exec (.rxStep tx b) s = .next t →
    t.rxOut.oRxValid = true →
    s.RxCleared t ∧
    ∀ (tx' : Bool) (c : Byte), exec (.rxStep tx' c) t =
      exec (if c = 0x01 then .rxPreSof t.lenientKind else if c = 0x06 then .rxPreAck t.lenientKind
        else if c = 0x15 then .rxPreNak t.lenientKind
        else if c = 0x18 then .rxPreCan t.lenientKind else .rxPreBad t.lenientKind c) t

/-- R154: outside PREAMBLE the preamble values are data. In BODY such a byte is appended, with no outcome;
in CHECKSUM it is the candidate checksum; in LENGTH 0x06, 0x15 and 0x18 are lengths and 0x01 a bad one;
in PACKET_TYPE 0x01 is RESPONSE and the others are unknown types; in MESSAGE_TYPE they are unknown
kinds. -/
def Obligations.PreambleValuesInsideFrameAreData : Prop :=
  ∀ (tx : Bool) (b : Byte) (s : State), b ∈ ([0x01, 0x06, 0x15, 0x18] : List Byte) →
    (s.rx.rxState = .length → exec (.rxStep tx b) s =
      exec (if b = 0x01 then .rxLenBadA s.lenientKind b else .rxLenOk s.lenientKind b) s) ∧
    (s.rx.rxState = .packetType → exec (.rxStep tx b) s =
      exec (if b = 0x01 then .rxTypeRsp s.lenientKind else .rxTypeBad s.lenientKind b) s) ∧
    (s.rx.rxState = .messageType → exec (.rxStep tx b) s =
      exec (if s.lenientKind = true then .rxKindUnkLenient b else .rxKindUnkStrict b) s) ∧
    (s.rx.rxState = .body → s.rx.rxCnt.toNat ≤ 251 →
      ∃ t, exec (.rxStep tx b) s = .next t ∧ t.rxOut.oRxValid = false ∧
        t.rx.rxCnt.toNat = s.rx.rxCnt.toNat + 1 ∧
        Memory.read t.rx.rxBody s.rx.rxCnt.toNat = some b) ∧
    (s.rx.rxState = .checksum → exec (.rxStep tx b) s = exec (.rxCsum s.lenientKind b) s)

/-- R155: every frame that a PACKET outcome delivers satisfies `FrameValid` and `ValidateChecksum` under
the same strap; a structured one has every field, and its length is 3 plus its body's. -/
def Obligations.DeliveredFramesAreValid : Prop :=
  ∀ (tx : Bool) (b : Byte) (s t : State), s.Inv → exec (.rxStep tx b) s = .next t →
    t.rxOut.oRxValid = true → t.rxOut.oRxRes = .packet →
    ∃ f : Frame, t.shownFields = some f.toPart ∧ frameValid s.lenientKind f = true ∧
      validateChecksum f = .ok true ∧
      (f.pre = 0x01 → ∃ len type kind c, f.len = some len ∧ f.type = some type ∧
        f.kind = some kind ∧ f.csum = some c ∧ len.toNat = 3 + f.body.length)

/-- R160: two machines in PREAMBLE under the same strap, whatever came before, answer the same bytes
alike: both go on, their in-flight states agree, and each byte's outcome is the same. -/
def Obligations.BytesBeforeLastOutcomeDoNotMatter : Prop :=
  ∀ (s u : State), s.Inv → u.Inv → s.rx.rxState = .preamble → u.rx.rxState = .preamble →
    s.lenientKind = u.lenientKind → ∀ bytes : List Byte, bytes ≠ [] →
    ∃ t v, feed bytes s = .next t ∧ feed bytes u = .next v ∧ t.rx.Agrees v.rx ∧ t.SameOutcome v

/-- R157, first half: the bytes that an OK TX.FRAME leaves in its buffer, fed to any RXD in PREAMBLE under
the same strap, parse to the frame that TXS built. -/
def Obligations.TransmittedFrameParsesBack : Prop :=
  ∀ (rx : Bool) (d : TxDescriptor) (s t : State), exec (.txFrame rx d) s = .next t →
    t.tx.oTxStatus = .ok →
    ∃ (bytes : List Byte) (f : Frame), create d = some f ∧ bytes = serialize f ∧
      t.txBytes = some bytes ∧
      ∀ r : State, r.rx.rxState = .preamble → r.lenientKind = s.lenientKind →
        ParsesTo bytes r f

/-- R157, second half: a byte sequence that RXD, starting in PREAMBLE, takes with no outcome but a PACKET
on its last byte is the serialization of the frame delivered. -/
def Obligations.DeliveredFrameReserializes : Prop :=
  ∀ (s : State) (bytes : List Byte) (f : Frame), s.rx.rxState = .preamble → bytes ≠ [] →
    ParsesTo bytes s f → serialize f = bytes

/-! ### TX -/

/-- R185: a control descriptor sends its preamble, one byte. -/
def Obligations.TxFrameSendsControlFrame : Prop :=
  ∀ (rx : Bool) (d : TxDescriptor) (s : State), d.pre ∈ ([0x06, 0x15, 0x18] : List Byte) →
    d.typeV = false → d.msgV = false → d.cnt = 0 →
    create d = some
      { pre := d.pre, len := none, type := none, kind := none, body := [], csum := none } ∧
    ∃ t, exec (.txFrame rx d) s = .next t ∧
      t.tx.oTxValid = true ∧ t.tx.oTxStatus = .ok ∧ t.tx.oTxLen = 1 ∧
      Memory.read t.tx.oTxBuf 0 = some d.pre ∧
      (∀ i, 1 ≤ i → Memory.read t.tx.oTxBuf i = Memory.read s.tx.oTxBuf i) ∧
      t.rx = s.rx ∧ t.rxOut = s.rxOut ∧ t.lenientKind = s.lenientKind ∧ t.script = s.script

/-- R181, R188: a descriptor with SOF, both flags, a known type, a kind that the strap accepts and at most
252 body bytes sends the structured frame, `cnt + 5` bytes, LENGTH = 3 + `cnt`. -/
def Obligations.TxFrameSendsStructuredFrame : Prop :=
  ∀ (rx : Bool) (d : TxDescriptor) (s : State), d.pre = 0x01 → d.typeV = true → d.msgV = true →
    d.type ∈ ([0x00, 0x01] : List Byte) →
    d.msg ∈ ([0x00, 0x02, 0x04, 0x05, 0x07, 0x13, 0x49] : List Byte) ∨ s.lenientKind = true →
    d.cnt.toNat ≤ 252 →
    ∃ (len : Byte) (bytes : List Byte) (t : State),
      len.toNat = 3 + d.cnt.toNat ∧
      bytes = [0x01, len, d.type, d.msg] ++ d.body.toList.take d.cnt.toNat ++
        [checksum len d.type d.msg (d.body.toList.take d.cnt.toNat)] ∧
      exec (.txFrame rx d) s = .next t ∧
      t.tx.oTxValid = true ∧ t.tx.oTxStatus = .ok ∧ t.tx.oTxLen.toNat = d.cnt.toNat + 5 ∧
      bytes.length = d.cnt.toNat + 5 ∧
      (∀ i, i < d.cnt.toNat + 5 → Memory.read t.tx.oTxBuf i = bytes[i]?) ∧
      (∀ i, d.cnt.toNat + 5 ≤ i → Memory.read t.tx.oTxBuf i = Memory.read s.tx.oTxBuf i) ∧
      t.rx = s.rx ∧ t.rxOut = s.rxOut ∧ t.lenientKind = s.lenientKind ∧ t.script = s.script

/-- R183, R232: every other descriptor reports InvalidFrame: status 6, length 0, the buffer and all else
unchanged. -/
def Obligations.TxFrameRejectsEveryOtherDescriptor : Prop :=
  ∀ (rx : Bool) (d : TxDescriptor) (s : State),
    ¬ (d.pre ∈ ([0x06, 0x15, 0x18] : List Byte) ∧ d.typeV = false ∧ d.msgV = false ∧ d.cnt = 0) →
    ¬ (d.pre = 0x01 ∧ d.typeV = true ∧ d.msgV = true ∧ d.type ∈ ([0x00, 0x01] : List Byte) ∧
      (d.msg ∈ ([0x00, 0x02, 0x04, 0x05, 0x07, 0x13, 0x49] : List Byte) ∨
        s.lenientKind = true) ∧
      d.cnt.toNat ≤ 252) →
    ∃ t, exec (.txFrame rx d) s = .next t ∧
      t.tx.oTxValid = true ∧ t.tx.oTxStatus.code = 6 ∧ t.tx.oTxLen = 0 ∧
      t.tx.oTxBuf = s.tx.oTxBuf ∧
      t.rx = s.rx ∧ t.rxOut = s.rxOut ∧ t.lenientKind = s.lenientKind ∧ t.script = s.script

/-- R180, R181: `Create`: which fields the candidate frame has, its length and its checksum. Where
`computed + 1` is no byte the model answers no frame (log 9; D14). -/
def Obligations.CreateFollowsDescriptor : Prop :=
  ∀ d : TxDescriptor,
    let computed := (if d.typeV then 1 else 0) + (if d.msgV then 1 else 0) + d.cnt.toNat
    let type := if d.typeV = true then some d.type else none
    let kind := if d.msgV = true then some d.msg else none
    let body := d.body.toList.take d.cnt.toNat
    body.length = d.cnt.toNat ∧
    (computed = 0 → create d = some
      { pre := d.pre, len := none, type := type, kind := kind, body := body, csum := none }) ∧
    (0 < computed → computed + 1 ≤ 255 → ∃ len : Byte, len.toNat = computed + 1 ∧
      create d = some
        { pre := d.pre, len := some len, type := type, kind := kind, body := body,
          csum := if d.typeV = true ∧ d.msgV = true then some (checksum len d.type d.msg body)
            else none }) ∧
    (255 < computed + 1 → create d = none) ∧
    (d.typeV = true → d.msgV = true → d.cnt.toNat ≤ 252 → ∃ (f : Frame) (len : Byte),
      create d = some f ∧ f.len = some len ∧ len.toNat = 3 + d.cnt.toNat ∧
      f.csum = some (checksum len d.type d.msg body))

/-- R183: TX.FRAME: with `cnt` at most 252 and a valid candidate frame it writes that frame's
serialization, with any other descriptor it reports InvalidFrame; nothing else changes. -/
def Obligations.TxFrameFollowsCreate : Prop :=
  (∀ (rx : Bool) (b : Byte) (d : TxDescriptor),
    decodePort .tx (portWord false rx true) b d = some (.txFrame rx d)) ∧
  ∀ (rx : Bool) (d : TxDescriptor) (s : State),
    (∀ f, d.cnt.toNat ≤ 252 → create d = some f → frameValid s.lenientKind f = true →
      ∃ t, exec (.txFrame rx d) s = .next t ∧ t.tx.oTxValid = true ∧ t.tx.oTxStatus.code = 0 ∧
        t.tx.oTxLen.toNat = (serialize f).length ∧ t.txBytes = some (serialize f) ∧
        (∀ i, (serialize f).length ≤ i →
          Memory.read t.tx.oTxBuf i = Memory.read s.tx.oTxBuf i) ∧
        t.rx = s.rx ∧ t.rxOut = s.rxOut ∧ t.lenientKind = s.lenientKind ∧ t.script = s.script) ∧
    (252 < d.cnt.toNat ∨ (∀ f, create d = some f → frameValid s.lenientKind f = false) →
      ∃ t, exec (.txFrame rx d) s = .next t ∧ t.tx.oTxValid = true ∧
        t.tx.oTxStatus.code = 6 ∧ t.tx.oTxLen = 0 ∧ t.tx.oTxBuf = s.tx.oTxBuf ∧
        t.rx = s.rx ∧ t.rxOut = s.rxOut ∧ t.lenientKind = s.lenientKind ∧ t.script = s.script)

/-- R189: a frame sent with status OK validates, and the exclusive or of its bytes after the preamble is
0xFF when it is structured. -/
def Obligations.SentFramesPassTheCheck : Prop :=
  ∀ (rx : Bool) (d : TxDescriptor) (s t : State), exec (.txFrame rx d) s = .next t →
    t.tx.oTxStatus = .ok →
    ∃ (f : Frame) (bytes : List Byte), create d = some f ∧ validateChecksum f = .ok true ∧
      t.txBytes = some bytes ∧ (d.pre = 0x01 → xorFold 0x00 (bytes.drop 1) = 0xFF)

/-- R98: the pseudo-operations: the descriptor of each, and the bytes that its TX.FRAME sends; REQ of an
unknown kind under the strict policy sends none. -/
def Obligations.PseudoOperationsSend : Prop :=
  sendAck = txLine 0x06 none none [] ∧ sendNak = txLine 0x15 none none [] ∧
  sendCan = txLine 0x18 none none [] ∧
  (∀ kk, reqLine kk = txLine 0x01 (some 0x00) (some kk) []) ∧
  ∀ (rx : Bool) (s : State),
    (∀ x ∈ [(sendAck, (0x06 : Byte)), (sendNak, (0x15 : Byte)), (sendCan, (0x18 : Byte))],
      ∃ t, exec (.txFrame rx x.1) s = .next t ∧ t.tx.oTxStatus = .ok ∧ t.txBytes = some [x.2]) ∧
    ∀ kk : Byte,
      (kk ∈ ([0x00, 0x02, 0x04, 0x05, 0x07, 0x13, 0x49] : List Byte) ∨ s.lenientKind = true →
        ∃ t, exec (.txFrame rx (reqLine kk)) s = .next t ∧ t.tx.oTxStatus = .ok ∧
          t.txBytes = some [0x01, 0x03, 0x00, kk, 0xFC ^^^ kk]) ∧
      (kk ∉ ([0x00, 0x02, 0x04, 0x05, 0x07, 0x13, 0x49] : List Byte) → s.lenientKind = false →
        ∃ t, exec (.txFrame rx (reqLine kk)) s = .next t ∧ t.tx.oTxStatus = .invalidFrame ∧
          t.tx.oTxLen = 0 ∧ t.txBytes = some [])

/-- Derived from R31: `FrameValid`, clause by clause. That a SOF frame with `kind` absent fails under the
lenient strap too is the model's reading (log 15, DEDUCED), where R31's formula and its quoted source text
differ. -/
def Obligations.FrameValidClauses : Prop :=
  ∀ (lenient : Bool) (f : Frame), frameValid lenient f = true ↔
    (f.pre ∈ ([0x06, 0x15, 0x18] : List Byte) ∧ f.len = none ∧ f.type = none ∧ f.kind = none ∧
      f.body = [] ∧ f.csum = none) ∨
    (f.pre = 0x01 ∧ ∃ len type kind, f.len = some len ∧ f.type = some type ∧
      f.kind = some kind ∧ len.toNat = 3 + f.body.length ∧
      type ∈ ([0x00, 0x01] : List Byte) ∧
      (kind ∈ ([0x00, 0x02, 0x04, 0x05, 0x07, 0x13, 0x49] : List Byte) ∨ lenient = true) ∧
      (f.csum = none ∨ f.csum = some (checksum len type kind f.body)))

/-- R182, R63: the canonical serialization, and with every field present the wire order of R82. -/
def Obligations.SerializeIsWireOrder : Prop :=
  (∀ f : Frame, serialize f =
    f.pre :: ((match f.len with | some x => [x] | none => []) ++
      (match f.type with | some x => [x] | none => []) ++
      (match f.kind with | some x => [x] | none => []) ++ f.body ++
      (match f.csum with | some x => [x] | none => []))) ∧
  ∀ (len type kind c : Byte) (body : List Byte), len.toNat = 3 + body.length →
    let bytes := serialize { pre := 0x01, len := some len, type := some type, kind := some kind,
                             body := body, csum := some c }
    bytes.length = len.toNat + 2 ∧ bytes.take 4 = [0x01, len, type, kind] ∧
    (∀ i, i < body.length → bytes[4 + i]? = body[i]?) ∧ bytes[4 + body.length]? = some c

/-! ### Control -/

/-- R201, R202: the idle operations complete from every state and clear their own pulse alone; each is
what its side decodes from a port word without its strobe. -/
def Obligations.IdleClearsPulseOnly : Prop :=
  ∀ (x : Bool) (s : State),
    exec (.rxIdle x) s = .next { s with rxOut := { s.rxOut with oRxValid := false } } ∧
    exec (.txIdle x) s = .next { s with tx := { s.tx with oTxValid := false } } ∧
    ∀ (b : Byte) (d : TxDescriptor),
      decodePort .rx (portWord false false x) b d = some (.rxIdle x) ∧
      decodePort .tx (portWord false x false) b d = some (.txIdle x)

/-- R201, R268: idle edges between bytes change nothing but the pulse: a run of bytes with idles anywhere
leaves what the run without them leaves, and stops where it stops. -/
def Obligations.IdleBetweenBytesChangesNothing : Prop :=
  ∀ (s : State) (ops : List Instr),
    (∀ i ∈ ops, ∃ tx, (∃ b, i = .rxStep tx b) ∨ i = .rxIdle tx) →
    let bytesOnly := ops.filter fun i => match i with | .rxStep _ _ => true | _ => false
    (∀ u, runInstrs exec bytesOnly s = .next u → ∃ t, runInstrs exec ops s = .next t ∧
      t.rx = u.rx ∧ t.rxOut.quiet = u.rxOut.quiet ∧ t.tx = u.tx ∧
      t.lenientKind = u.lenientKind ∧ t.script = u.script) ∧
    (∀ r, runInstrs exec bytesOnly s = .fault r → runInstrs exec ops s = .fault r) ∧
    (∀ r, runInstrs exec bytesOnly s = .refused r → runInstrs exec ops s = .refused r)

/-- R44: the host's reads at or beyond the counts are refused; below them, from every state with the
invariant, they give the element's byte. -/
def Obligations.HostReadsOnlyMeaningfulBytes : Prop :=
  ∀ (s : State) (i : Nat),
    (s.rxOut.oRxCnt.toNat ≤ i → s.readRxBody i = .error .unwrittenByte) ∧
    (s.tx.oTxLen.toNat ≤ i → s.readTxBuf i = .error .unwrittenByte) ∧
    (s.Inv → i < s.rxOut.oRxCnt.toNat →
      ∃ b, s.readRxBody i = .ok b ∧ Memory.read s.rxOut.oRxBody i = some b) ∧
    (s.Inv → i < s.tx.oTxLen.toNat →
      ∃ b, s.readTxBuf i = .ok b ∧ Memory.read s.tx.oTxBuf i = some b)
end

