-- ==== Sys2Proof/Laws/Checksum.lean ====
section
/-! SUPPORT. The checksum fold (R9, R120, R121) and the accumulator (R94). -/

namespace Sys2Proof.Machine

@[simp] theorem xorFold_nil (a : Byte) : xorFold a [] = a := rfl

@[simp] theorem xorFold_cons (a b : Byte) (rest : List Byte) :
    xorFold a (b :: rest) = xorFold (a ^^^ b) rest := rfl

/-- A fold over a concatenation is the fold of the second part from the fold of the first. -/
theorem xorFold_append (a : Byte) (xs ys : List Byte) :
    xorFold a (xs ++ ys) = xorFold (xorFold a xs) ys := by
  induction xs generalizing a with
  | nil => rfl
  | cons b rest ih => simpa using ih (a ^^^ b)

/-- The seed comes out of the fold. -/
theorem xorFold_seed (a : Byte) (xs : List Byte) : xorFold a xs = a ^^^ xorFold 0 xs := by
  induction xs generalizing a with
  | nil => simp
  | cons b rest ih =>
    rw [xorFold_cons, xorFold_cons, ih, ih (0 ^^^ b)]
    simp [BitVec.xor_assoc]

/-- Absorbing the next byte extends the fold by it (R123, R126). -/
theorem xorFold_concat (a : Byte) (xs : List Byte) (b : Byte) :
    xorFold a (xs ++ [b]) = xorFold a xs ^^^ b := by
  rw [xorFold_append]; rfl

/-- The checksum with one more body byte. -/
theorem checksum_concat (len type kind : Byte) (body : List Byte) (b : Byte) :
    checksum len type kind (body ++ [b]) = checksum len type kind body ^^^ b := by
  simp only [checksum, ← List.append_assoc, xorFold_concat]

@[simp] theorem csuNext_init (absorb : Bool) (byte acc : Byte) :
    csuNext (1#1 ++ BitVec.ofBool absorb) byte acc = 0xFF := by
  cases absorb <;> rfl

@[simp] theorem csuNext_seed (byte acc : Byte) : csuNext 0b10 byte acc = 0xFF := rfl

@[simp] theorem csuNext_absorb (byte acc : Byte) : csuNext 0b01 byte acc = acc ^^^ byte := rfl

@[simp] theorem csuNext_hold (byte acc : Byte) : csuNext 0b00 byte acc = acc := rfl

end Sys2Proof.Machine
end

