-- ==== Sys2Proof/Laws/Decode.lean ====
section
/-! SUPPORT. What the decode tables give, state by state: the RXSTEP table (R91) as the byte tests of
each FSM state, and the PORT table (R89) by strobes. Each is checked over the finite word. -/

namespace Sys2Proof

/-- Rows 1 to 5: PREAMBLE. -/
theorem decodeRxStep_preamble (l : Bool) (b : Byte) :
    decodeRxStep (rxStepWord l 0 b) = some
      (if b = 0x01 then .rxPreSof l else if b = 0x06 then .rxPreAck l
       else if b = 0x15 then .rxPreNak l else if b = 0x18 then .rxPreCan l
       else .rxPreBad l b) := by
  revert l b; decide +kernel

/-- Rows 6 to 8: LENGTH. -/
theorem decodeRxStep_length (l : Bool) (b : Byte) :
    decodeRxStep (rxStepWord l 1 b) = some
      (if b.toNat < 2 then .rxLenBadA l b else if b = 0x02 then .rxLenBadB l
       else .rxLenOk l b) := by
  revert l b; decide +kernel

/-- Rows 9 to 11: PACKET_TYPE. -/
theorem decodeRxStep_packetType (l : Bool) (b : Byte) :
    decodeRxStep (rxStepWord l 2 b) = some
      (if b = 0x00 then .rxTypeReq l else if b = 0x01 then .rxTypeRsp l
       else .rxTypeBad l b) := by
  revert l b; decide +kernel

/-- Rows 12 to 20: MESSAGE_TYPE. -/
theorem decodeRxStep_messageType (l : Bool) (b : Byte) :
    decodeRxStep (rxStepWord l 3 b) = some
      (if b = 0x00 then .rxKindK00 l else if b = 0x02 then .rxKindK02 l
       else if b = 0x04 then .rxKindK04 l else if b = 0x05 then .rxKindK05 l
       else if b = 0x07 then .rxKindK07 l else if b = 0x13 then .rxKindK13 l
       else if b = 0x49 then .rxKindK49 l
       else if l then .rxKindUnkLenient b else .rxKindUnkStrict b) := by
  revert l b; decide +kernel

/-- Row 21: BODY. -/
theorem decodeRxStep_body (l : Bool) (b : Byte) :
    decodeRxStep (rxStepWord l 4 b) = some (.rxBody l b) := by
  revert l b; decide +kernel

/-- Row 22: CHECKSUM. -/
theorem decodeRxStep_checksum (l : Bool) (b : Byte) :
    decodeRxStep (rxStepWord l 5 b) = some (.rxCsum l b) := by
  revert l b; decide +kernel

/-- Row 23: state code 6. -/
theorem decodeRxStep_rsv6 (l : Bool) (b : Byte) :
    decodeRxStep (rxStepWord l 6 b) = some (.rxRsv6 l b) := by
  revert l b; decide +kernel

/-- Row 24: state code 7. -/
theorem decodeRxStep_rsv7 (l : Bool) (b : Byte) :
    decodeRxStep (rxStepWord l 7 b) = some (.rxRsv7 l b) := by
  revert l b; decide +kernel

/-- Every RXSTEP word is one of a policy bit, a state code and a byte (R90). -/
theorem rxStepWord_split (w : BitVec 12) :
    rxStepWord (w.getLsbD 11) (w.extractLsb' 8 3) (w.extractLsb' 0 8) = w := by
  revert w; decide +kernel

/-- What the RX side decodes from a port word (R89). -/
theorem decodePort_rx (rst rx tx : Bool) (b : Byte) (d : TxDescriptor) :
    decodePort .rx (portWord rst rx tx) b d = some
      (if rst then .reset rx tx else if rx then .rxStep tx b else .rxIdle tx) := by
  cases rst <;> cases rx <;> cases tx <;> rfl

/-- What the TX side decodes from a port word (R89). -/
theorem decodePort_tx (rst rx tx : Bool) (b : Byte) (d : TxDescriptor) :
    decodePort .tx (portWord rst rx tx) b d = some
      (if rst then .reset rx tx else if tx then .txFrame rx d else .txIdle rx) := by
  cases rst <;> cases rx <;> cases tx <;> rfl

end Sys2Proof
end

