-- ==== Sys2Proof/Laws/Memory.lean ====
section
/-! SUPPORT. The byte stores: a read after a write, what a write of a sequence leaves, and that every
operation keeps the canonical form. -/

namespace Sys2Proof.Machine

@[simp] theorem Memory.read_nil (a : Nat) : Memory.read [] a = none := rfl

/-- A read of the element just written gives the byte written. -/
@[simp] theorem Memory.read_write_same (m : Memory) (a : Nat) (v : Byte) :
    (m.write a v).read a = some v := by
  induction m with
  | nil => simp [Memory.write, Memory.read]
  | cons c rest ih =>
    obtain ⟨k, w⟩ := c
    unfold Memory.write
    split_ifs with h1 h2
    · simp [Memory.read]
    · simp [Memory.read]
    · simp [Memory.read, h1, h2, ih]

/-- A write leaves every other element alone. -/
theorem Memory.read_write_other (m : Memory) {a i : Nat} (v : Byte) (h : i ≠ a) :
    (m.write a v).read i = m.read i := by
  induction m with
  | nil => simp [Memory.write, Memory.read, Ne.symm h]
  | cons c rest ih =>
    obtain ⟨k, w⟩ := c
    unfold Memory.write
    split_ifs with h1 h2
    · subst h1; simp [Memory.read, Ne.symm h]
    · by_cases hi : i < a
      · have : ¬ k = i := by omega
        have : i < k := by omega
        simp [Memory.read, Ne.symm h, *]
      · simp [Memory.read, Ne.symm h, hi]
    · simp only [Memory.read, ih]

/-- What a write of a byte sequence leaves in each element. -/
theorem Memory.read_writeList (m : Memory) (a i : Nat) (bytes : List Byte) :
    (m.writeList a bytes).read i =
      if a ≤ i ∧ i < a + bytes.length then bytes[i - a]? else m.read i := by
  induction bytes generalizing m a with
  | nil => simp [Memory.writeList]
  | cons b rest ih =>
    simp only [Memory.writeList, ih, List.length_cons]
    by_cases h1 : i = a
    · subst h1; simp
    · by_cases h2 : a + 1 ≤ i ∧ i < a + 1 + rest.length
      · have h3 : a ≤ i ∧ i < a + (rest.length + 1) := by omega
        obtain ⟨k, hk⟩ : ∃ k, i - a = k + 1 := ⟨i - a - 1, by omega⟩
        have hk' : i - (a + 1) = k := by omega
        simp [h2, h3, hk, hk']
      · have h3 : ¬ (a ≤ i ∧ i < a + (rest.length + 1)) := by omega
        rw [if_neg h2, if_neg h3, Memory.read_write_other m b h1]

/-- Reading `n` elements gives `bytes` exactly when there are `n` of them and each is as read. -/
theorem Memory.readFrom_eq_some (m : Memory) (a n : Nat) (bytes : List Byte) :
    m.readFrom a n = some bytes ↔
      bytes.length = n ∧ ∀ i, i < n → m.read (a + i) = bytes[i]? := by
  induction n generalizing a bytes with
  | zero => simp [Memory.readFrom, eq_comm, List.eq_nil_iff_length_eq_zero]
  | succ n ih =>
    cases bytes with
    | nil =>
      simp only [Memory.readFrom, List.length_nil]
      split <;> simp
    | cons b rest =>
      have key : (∀ i, i < n + 1 → m.read (a + i) = (b :: rest)[i]?) ↔
          m.read a = some b ∧ ∀ i, i < n → m.read (a + 1 + i) = rest[i]? := by
        constructor
        · intro h
          refine ⟨by simpa using h 0 (by omega), fun i hi => ?_⟩
          have := h (i + 1) (by omega)
          rw [show a + (i + 1) = a + 1 + i by omega] at this
          simpa using this
        · rintro ⟨h0, h⟩ i hi
          cases i with
          | zero => simpa using h0
          | succ i =>
            rw [show a + (i + 1) = a + 1 + i by omega]
            simpa using h i (by omega)
      rw [key]
      have := ih (a + 1) rest
      constructor
      · intro h
        simp only [Memory.readFrom] at h
        split at h
        · next hb hr =>
          simp only [Option.some.injEq, List.cons.injEq] at h
          obtain ⟨rfl, rfl⟩ := h
          obtain ⟨h1, h2⟩ := this.1 hr
          exact ⟨by simp [h1], hb, h2⟩
        · cases h
      · rintro ⟨h1, h2, h3⟩
        have hr := this.2 ⟨by simpa using h1, h3⟩
        simp [Memory.readFrom, h2, hr]

/-- The bytes just written from element 0 are the bytes read back. -/
theorem Memory.readFrom_writeList (m : Memory) (bytes : List Byte) :
    (m.writeList 0 bytes).readFrom 0 bytes.length = some bytes := by
  rw [Memory.readFrom_eq_some]
  refine ⟨rfl, fun i hi => ?_⟩
  rw [Memory.read_writeList, if_pos (by omega)]
  simp

/-- Reading one element more. -/
theorem Memory.readFrom_succ (m : Memory) {n : Nat} {bytes : List Byte} {b : Byte}
    (h : m.readFrom 0 n = some bytes) :
    (m.write n b).readFrom 0 (n + 1) = some (bytes ++ [b]) := by
  rw [Memory.readFrom_eq_some] at h ⊢
  obtain ⟨hl, hr⟩ := h
  refine ⟨by simp [hl], fun i hi => ?_⟩
  by_cases h1 : i = n
  · subst h1; simp [hl]
  · have h2 : i < n := by omega
    rw [Memory.read_write_other _ _ (by omega), hr i h2, List.getElem?_append_left (by omega)]

/-- A write keeps the canonical form. -/
theorem Memory.wfFrom_write (m : Memory) {a lo size : Nat} (v : Byte) (h : m.wfFrom lo size = true)
    (h1 : lo ≤ a) (h2 : a < size) : (m.write a v).wfFrom lo size = true := by
  induction m generalizing lo with
  | nil => simp [Memory.write, Memory.wfFrom, h1, h2]
  | cons c rest ih =>
    obtain ⟨k, w⟩ := c
    simp only [Memory.wfFrom, Bool.and_eq_true, decide_eq_true_eq] at h
    unfold Memory.write
    split_ifs with h3 h4
    · subst h3; simp [Memory.wfFrom, h]
    · simp only [Memory.wfFrom, Bool.and_eq_true, decide_eq_true_eq]
      exact ⟨⟨h1, h2⟩, ⟨by omega, h.1.2⟩, h.2⟩
    · simp only [Memory.wfFrom, Bool.and_eq_true, decide_eq_true_eq]
      exact ⟨h.1, ih h.2 (by omega)⟩

theorem Memory.wf_write (m : Memory) {a size : Nat} (v : Byte) (h : m.wf size = true)
    (ha : a < size) : (m.write a v).wf size = true :=
  Memory.wfFrom_write m v h (by omega) ha

/-- A write of a byte sequence that fits keeps the canonical form. -/
theorem Memory.wf_writeList (m : Memory) {a size : Nat} (bytes : List Byte) (h : m.wf size = true)
    (ha : a + bytes.length ≤ size) : (m.writeList a bytes).wf size = true := by
  induction bytes generalizing m a with
  | nil => exact h
  | cons b rest ih =>
    simp only [List.length_cons] at ha
    exact ih _ (Memory.wf_write m b h (by omega)) (by omega)

/-- The three buffers are canonical right after reset. -/
theorem State.reset_buffers_wf :
    Memory.wf State.reset.rx.rxBody Config.bodyMax = true ∧
    Memory.wf State.reset.rxOut.oRxBody Config.bodyMax = true ∧
    Memory.wf State.reset.tx.oTxBuf Config.frameMax = true := ⟨rfl, rfl, rfl⟩

end Sys2Proof.Machine
end

