-- ==== Sys2Proof/Laws/PerInstr.lean ====
section
/-! SUPPORT. One fact per instruction, as syntax: the word that `encode` gives for it meets the mask
and match of its row of the opcode table (R89, R91, R94). -/

namespace Sys2Proof.Laws.RowMatch

/-- The mask and the match of an instruction's row, as the opcode table has them. -/
def maskAndMatch (i : Instr) : Nat × Nat :=
  match i with
  | .reset _ _ => (0b100, 0b100)
  | .rxStep _ _ => (0b110, 0b010)
  | .rxIdle _ => (0b110, 0b000)
  | .txFrame _ _ => (0b101, 0b001)
  | .txIdle _ => (0b101, 0b000)
  | .rxPreSof _ => (0x7FF, 0x001)
  | .rxPreAck _ => (0x7FF, 0x006)
  | .rxPreNak _ => (0x7FF, 0x015)
  | .rxPreCan _ => (0x7FF, 0x018)
  | .rxPreBad _ _ => (0x700, 0x000)
  | .rxLenBadA _ _ => (0x7FE, 0x100)
  | .rxLenBadB _ => (0x7FF, 0x102)
  | .rxLenOk _ _ => (0x700, 0x100)
  | .rxTypeReq _ => (0x7FF, 0x200)
  | .rxTypeRsp _ => (0x7FF, 0x201)
  | .rxTypeBad _ _ => (0x700, 0x200)
  | .rxKindK00 _ => (0x7FF, 0x300)
  | .rxKindK02 _ => (0x7FF, 0x302)
  | .rxKindK04 _ => (0x7FF, 0x304)
  | .rxKindK05 _ => (0x7FF, 0x305)
  | .rxKindK07 _ => (0x7FF, 0x307)
  | .rxKindK13 _ => (0x7FF, 0x313)
  | .rxKindK49 _ => (0x7FF, 0x349)
  | .rxKindUnkLenient _ => (0xF00, 0xB00)
  | .rxKindUnkStrict _ => (0xF00, 0x300)
  | .rxBody _ _ => (0x700, 0x400)
  | .rxCsum _ _ => (0x700, 0x500)
  | .rxRsv6 _ _ => (0x700, 0x600)
  | .rxRsv7 _ _ => (0x700, 0x700)
  | .csuInit _ => (0b10, 0b10)
  | .csuAbsorb _ => (0b11, 0b01)
  | .csuHold => (0b11, 0b00)

/-- The encoding of a well-formed instruction is a word of its row. -/
def Statement (i : Instr) : Prop :=
  i.wellFormed = true → (encode i).bits &&& (maskAndMatch i).1 = (maskAndMatch i).2

/-- An RXSTEP word under a mask that covers the state code alone shows the code. -/
theorem rxStepWord_state :
    ∀ (l : Bool) (c : BitVec 3) (b : Byte),
      (rxStepWord l c b).toNat &&& 0x700 = c.toNat * 0x100 := by
  decide +kernel

/-- An RXSTEP word under a mask that covers the policy bit and the state code shows both. -/
theorem rxStepWord_policy :
    ∀ (l : Bool) (c : BitVec 3) (b : Byte),
      (rxStepWord l c b).toNat &&& 0xF00 = l.toNat * 0x800 + c.toNat * 0x100 := by
  decide +kernel

theorem reset (rx : Bool) (tx : Bool) : Statement (.reset rx tx) := fun _ => by
  cases rx <;> cases tx <;> rfl

theorem rxStep (tx : Bool) (b : Byte) : Statement (.rxStep tx b) := fun _ => by
  show (portWord false true tx).toNat &&& 0b110 = 0b010
  cases tx <;> rfl

theorem rxIdle (tx : Bool) : Statement (.rxIdle tx) := fun _ => by
  cases tx <;> rfl

theorem txFrame (rx : Bool) (d : TxDescriptor) : Statement (.txFrame rx d) := fun _ => by
  show (portWord false rx true).toNat &&& 0b101 = 0b001
  cases rx <;> rfl

theorem txIdle (rx : Bool) : Statement (.txIdle rx) := fun _ => by
  cases rx <;> rfl

theorem rxPreSof (l : Bool) : Statement (.rxPreSof l) := fun _ => by
  cases l <;> rfl

theorem rxPreAck (l : Bool) : Statement (.rxPreAck l) := fun _ => by
  cases l <;> rfl

theorem rxPreNak (l : Bool) : Statement (.rxPreNak l) := fun _ => by
  cases l <;> rfl

theorem rxPreCan (l : Bool) : Statement (.rxPreCan l) := fun _ => by
  cases l <;> rfl

theorem rxPreBad (l : Bool) (b : Byte) : Statement (.rxPreBad l b) := fun _ =>
  rxStepWord_state l _ b

theorem rxLenBadA (l : Bool) (b : Byte) : Statement (.rxLenBadA l b) := by
  revert l b; unfold Statement; decide +kernel

theorem rxLenBadB (l : Bool) : Statement (.rxLenBadB l) := fun _ => by
  cases l <;> rfl

theorem rxLenOk (l : Bool) (b : Byte) : Statement (.rxLenOk l b) := fun _ =>
  rxStepWord_state l _ b

theorem rxTypeReq (l : Bool) : Statement (.rxTypeReq l) := fun _ => by
  cases l <;> rfl

theorem rxTypeRsp (l : Bool) : Statement (.rxTypeRsp l) := fun _ => by
  cases l <;> rfl

theorem rxTypeBad (l : Bool) (b : Byte) : Statement (.rxTypeBad l b) := fun _ =>
  rxStepWord_state l _ b

theorem rxKindK00 (l : Bool) : Statement (.rxKindK00 l) := fun _ => by
  cases l <;> rfl

theorem rxKindK02 (l : Bool) : Statement (.rxKindK02 l) := fun _ => by
  cases l <;> rfl

theorem rxKindK04 (l : Bool) : Statement (.rxKindK04 l) := fun _ => by
  cases l <;> rfl

theorem rxKindK05 (l : Bool) : Statement (.rxKindK05 l) := fun _ => by
  cases l <;> rfl

theorem rxKindK07 (l : Bool) : Statement (.rxKindK07 l) := fun _ => by
  cases l <;> rfl

theorem rxKindK13 (l : Bool) : Statement (.rxKindK13 l) := fun _ => by
  cases l <;> rfl

theorem rxKindK49 (l : Bool) : Statement (.rxKindK49 l) := fun _ => by
  cases l <;> rfl

theorem rxKindUnkLenient (b : Byte) : Statement (.rxKindUnkLenient b) := fun _ =>
  rxStepWord_policy _ _ b

theorem rxKindUnkStrict (b : Byte) : Statement (.rxKindUnkStrict b) := fun _ =>
  rxStepWord_policy _ _ b

theorem rxBody (l : Bool) (b : Byte) : Statement (.rxBody l b) := fun _ =>
  rxStepWord_state l _ b

theorem rxCsum (l : Bool) (b : Byte) : Statement (.rxCsum l b) := fun _ =>
  rxStepWord_state l _ b

theorem rxRsv6 (l : Bool) (b : Byte) : Statement (.rxRsv6 l b) := fun _ =>
  rxStepWord_state l _ b

theorem rxRsv7 (l : Bool) (b : Byte) : Statement (.rxRsv7 l b) := fun _ =>
  rxStepWord_state l _ b

theorem csuInit (absorb : Bool) : Statement (.csuInit absorb) := fun _ => by
  cases absorb <;> rfl

theorem csuAbsorb (b : Byte) : Statement (.csuAbsorb b) := fun _ => by
  show (0b01 : BitVec 2).toNat &&& 0b11 = 0b01
  rfl

theorem csuHold : Statement (.csuHold) := fun _ => rfl

end Sys2Proof.Laws.RowMatch
end

