-- ==== Sys2Proof/Laws/State.lean ====
section
/-! SUPPORT. One lemma per field and update: what each named update of the state leaves in each field.
All hold by `rfl`, so no later proof unfolds a record update. -/

namespace Sys2Proof.Machine

/-! ### `RxInFlight.driveCsu` -/

@[simp] theorem RxInFlight.driveCsu_rxState (r : RxInFlight) (c : BitVec 2) (b : Byte) :
    (r.driveCsu c b).rxState = r.rxState := rfl

@[simp] theorem RxInFlight.driveCsu_rxLen (r : RxInFlight) (c : BitVec 2) (b : Byte) :
    (r.driveCsu c b).rxLen = r.rxLen := rfl

@[simp] theorem RxInFlight.driveCsu_rxType (r : RxInFlight) (c : BitVec 2) (b : Byte) :
    (r.driveCsu c b).rxType = r.rxType := rfl

@[simp] theorem RxInFlight.driveCsu_rxKind (r : RxInFlight) (c : BitVec 2) (b : Byte) :
    (r.driveCsu c b).rxKind = r.rxKind := rfl

@[simp] theorem RxInFlight.driveCsu_rxCnt (r : RxInFlight) (c : BitVec 2) (b : Byte) :
    (r.driveCsu c b).rxCnt = r.rxCnt := rfl

@[simp] theorem RxInFlight.driveCsu_rxBody (r : RxInFlight) (c : BitVec 2) (b : Byte) :
    (r.driveCsu c b).rxBody = r.rxBody := rfl

@[simp] theorem RxInFlight.driveCsu_rxAcc (r : RxInFlight) (c : BitVec 2) (b : Byte) :
    (r.driveCsu c b).rxAcc = csuNext c b r.rxAcc := rfl

/-! ### `RxInFlight.clear` -/

@[simp] theorem RxInFlight.clear_rxState (r : RxInFlight) :
    (r.clear).rxState = .preamble := rfl

@[simp] theorem RxInFlight.clear_rxLen (r : RxInFlight) :
    (r.clear).rxLen = 0 := rfl

@[simp] theorem RxInFlight.clear_rxType (r : RxInFlight) :
    (r.clear).rxType = 0 := rfl

@[simp] theorem RxInFlight.clear_rxKind (r : RxInFlight) :
    (r.clear).rxKind = 0 := rfl

@[simp] theorem RxInFlight.clear_rxCnt (r : RxInFlight) :
    (r.clear).rxCnt = 0 := rfl

@[simp] theorem RxInFlight.clear_rxBody (r : RxInFlight) :
    (r.clear).rxBody = r.rxBody := rfl

@[simp] theorem RxInFlight.clear_rxAcc (r : RxInFlight) :
    (r.clear).rxAcc = 0xFF := rfl

/-! ### `RxOutputs.quiet` -/

@[simp] theorem RxOutputs.quiet_oRxValid (o : RxOutputs) :
    (o.quiet).oRxValid = false := rfl

@[simp] theorem RxOutputs.quiet_oRxRes (o : RxOutputs) :
    (o.quiet).oRxRes = o.oRxRes := rfl

@[simp] theorem RxOutputs.quiet_oRxErr (o : RxOutputs) :
    (o.quiet).oRxErr = o.oRxErr := rfl

@[simp] theorem RxOutputs.quiet_oRxByte (o : RxOutputs) :
    (o.quiet).oRxByte = o.oRxByte := rfl

@[simp] theorem RxOutputs.quiet_oRxPreV (o : RxOutputs) :
    (o.quiet).oRxPreV = o.oRxPreV := rfl

@[simp] theorem RxOutputs.quiet_oRxPre (o : RxOutputs) :
    (o.quiet).oRxPre = o.oRxPre := rfl

@[simp] theorem RxOutputs.quiet_oRxLenV (o : RxOutputs) :
    (o.quiet).oRxLenV = o.oRxLenV := rfl

@[simp] theorem RxOutputs.quiet_oRxLen (o : RxOutputs) :
    (o.quiet).oRxLen = o.oRxLen := rfl

@[simp] theorem RxOutputs.quiet_oRxTypeV (o : RxOutputs) :
    (o.quiet).oRxTypeV = o.oRxTypeV := rfl

@[simp] theorem RxOutputs.quiet_oRxType (o : RxOutputs) :
    (o.quiet).oRxType = o.oRxType := rfl

@[simp] theorem RxOutputs.quiet_oRxMsgV (o : RxOutputs) :
    (o.quiet).oRxMsgV = o.oRxMsgV := rfl

@[simp] theorem RxOutputs.quiet_oRxMsg (o : RxOutputs) :
    (o.quiet).oRxMsg = o.oRxMsg := rfl

@[simp] theorem RxOutputs.quiet_oRxCnt (o : RxOutputs) :
    (o.quiet).oRxCnt = o.oRxCnt := rfl

@[simp] theorem RxOutputs.quiet_oRxBody (o : RxOutputs) :
    (o.quiet).oRxBody = o.oRxBody := rfl

@[simp] theorem RxOutputs.quiet_oRxCsumV (o : RxOutputs) :
    (o.quiet).oRxCsumV = o.oRxCsumV := rfl

@[simp] theorem RxOutputs.quiet_oRxCsum (o : RxOutputs) :
    (o.quiet).oRxCsum = o.oRxCsum := rfl

/-! ### `RxOutputs.report` -/

@[simp] theorem RxOutputs.report_oRxValid (o : RxOutputs) (res : RxResult) (e : RxError) (b : Byte)
    (p : FramePart) :
    (o.report res e b p).oRxValid = true := rfl

@[simp] theorem RxOutputs.report_oRxRes (o : RxOutputs) (res : RxResult) (e : RxError) (b : Byte)
    (p : FramePart) :
    (o.report res e b p).oRxRes = res := rfl

@[simp] theorem RxOutputs.report_oRxErr (o : RxOutputs) (res : RxResult) (e : RxError) (b : Byte)
    (p : FramePart) :
    (o.report res e b p).oRxErr = e := rfl

@[simp] theorem RxOutputs.report_oRxByte (o : RxOutputs) (res : RxResult) (e : RxError) (b : Byte)
    (p : FramePart) :
    (o.report res e b p).oRxByte = b := rfl

@[simp] theorem RxOutputs.report_oRxPreV (o : RxOutputs) (res : RxResult) (e : RxError) (b : Byte)
    (p : FramePart) :
    (o.report res e b p).oRxPreV = p.pre.isSome := rfl

@[simp] theorem RxOutputs.report_oRxPre (o : RxOutputs) (res : RxResult) (e : RxError) (b : Byte)
    (p : FramePart) :
    (o.report res e b p).oRxPre = p.pre.getD 0 := rfl

@[simp] theorem RxOutputs.report_oRxLenV (o : RxOutputs) (res : RxResult) (e : RxError) (b : Byte)
    (p : FramePart) :
    (o.report res e b p).oRxLenV = p.len.isSome := rfl

@[simp] theorem RxOutputs.report_oRxLen (o : RxOutputs) (res : RxResult) (e : RxError) (b : Byte)
    (p : FramePart) :
    (o.report res e b p).oRxLen = p.len.getD 0 := rfl

@[simp] theorem RxOutputs.report_oRxTypeV (o : RxOutputs) (res : RxResult) (e : RxError) (b : Byte)
    (p : FramePart) :
    (o.report res e b p).oRxTypeV = p.type.isSome := rfl

@[simp] theorem RxOutputs.report_oRxType (o : RxOutputs) (res : RxResult) (e : RxError) (b : Byte)
    (p : FramePart) :
    (o.report res e b p).oRxType = p.type.getD 0 := rfl

@[simp] theorem RxOutputs.report_oRxMsgV (o : RxOutputs) (res : RxResult) (e : RxError) (b : Byte)
    (p : FramePart) :
    (o.report res e b p).oRxMsgV = p.kind.isSome := rfl

@[simp] theorem RxOutputs.report_oRxMsg (o : RxOutputs) (res : RxResult) (e : RxError) (b : Byte)
    (p : FramePart) :
    (o.report res e b p).oRxMsg = p.kind.getD 0 := rfl

@[simp] theorem RxOutputs.report_oRxCnt (o : RxOutputs) (res : RxResult) (e : RxError) (b : Byte)
    (p : FramePart) :
    (o.report res e b p).oRxCnt = BitVec.ofNat 8 p.body.length := rfl

@[simp] theorem RxOutputs.report_oRxBody (o : RxOutputs) (res : RxResult) (e : RxError) (b : Byte)
    (p : FramePart) :
    (o.report res e b p).oRxBody = Memory.writeList o.oRxBody 0 p.body := rfl

@[simp] theorem RxOutputs.report_oRxCsumV (o : RxOutputs) (res : RxResult) (e : RxError) (b : Byte)
    (p : FramePart) :
    (o.report res e b p).oRxCsumV = p.csum.isSome := rfl

@[simp] theorem RxOutputs.report_oRxCsum (o : RxOutputs) (res : RxResult) (e : RxError) (b : Byte)
    (p : FramePart) :
    (o.report res e b p).oRxCsum = p.csum.getD 0 := rfl

/-! ### `TxOutputs.quiet` -/

@[simp] theorem TxOutputs.quiet_oTxValid (o : TxOutputs) :
    (o.quiet).oTxValid = false := rfl

@[simp] theorem TxOutputs.quiet_oTxStatus (o : TxOutputs) :
    (o.quiet).oTxStatus = o.oTxStatus := rfl

@[simp] theorem TxOutputs.quiet_oTxLen (o : TxOutputs) :
    (o.quiet).oTxLen = o.oTxLen := rfl

@[simp] theorem TxOutputs.quiet_oTxBuf (o : TxOutputs) :
    (o.quiet).oTxBuf = o.oTxBuf := rfl

/-! ### `TxOutputs.sendFrame` -/

@[simp] theorem TxOutputs.sendFrame_oTxValid (o : TxOutputs) (bytes : List Byte) :
    (o.sendFrame bytes).oTxValid = true := rfl

@[simp] theorem TxOutputs.sendFrame_oTxStatus (o : TxOutputs) (bytes : List Byte) :
    (o.sendFrame bytes).oTxStatus = .ok := rfl

@[simp] theorem TxOutputs.sendFrame_oTxLen (o : TxOutputs) (bytes : List Byte) :
    (o.sendFrame bytes).oTxLen = BitVec.ofNat 9 bytes.length := rfl

@[simp] theorem TxOutputs.sendFrame_oTxBuf (o : TxOutputs) (bytes : List Byte) :
    (o.sendFrame bytes).oTxBuf = Memory.writeList o.oTxBuf 0 bytes := rfl

/-! ### `TxOutputs.rejectFrame` -/

@[simp] theorem TxOutputs.rejectFrame_oTxValid (o : TxOutputs) :
    (o.rejectFrame).oTxValid = true := rfl

@[simp] theorem TxOutputs.rejectFrame_oTxStatus (o : TxOutputs) :
    (o.rejectFrame).oTxStatus = .invalidFrame := rfl

@[simp] theorem TxOutputs.rejectFrame_oTxLen (o : TxOutputs) :
    (o.rejectFrame).oTxLen = 0 := rfl

@[simp] theorem TxOutputs.rejectFrame_oTxBuf (o : TxOutputs) :
    (o.rejectFrame).oTxBuf = o.oTxBuf := rfl

/-! ### `State.noOutcome` -/

@[simp] theorem State.noOutcome_rx (s : State) (r : RxInFlight) :
    (s.noOutcome r).rx = r := rfl

@[simp] theorem State.noOutcome_rxOut (s : State) (r : RxInFlight) :
    (s.noOutcome r).rxOut = s.rxOut.quiet := rfl

@[simp] theorem State.noOutcome_tx (s : State) (r : RxInFlight) :
    (s.noOutcome r).tx = s.tx := rfl

@[simp] theorem State.noOutcome_lenientKind (s : State) (r : RxInFlight) :
    (s.noOutcome r).lenientKind = s.lenientKind := rfl

@[simp] theorem State.noOutcome_script (s : State) (r : RxInFlight) :
    (s.noOutcome r).script = s.script := rfl

/-! ### `State.emitPacket` -/

@[simp] theorem State.emitPacket_rx (s : State) (b : Byte) (f : Frame) :
    (s.emitPacket b f).rx = s.rx.clear := rfl

@[simp] theorem State.emitPacket_rxOut (s : State) (b : Byte) (f : Frame) :
    (s.emitPacket b f).rxOut = s.rxOut.report .packet .none b f.toPart := rfl

@[simp] theorem State.emitPacket_tx (s : State) (b : Byte) (f : Frame) :
    (s.emitPacket b f).tx = s.tx := rfl

@[simp] theorem State.emitPacket_lenientKind (s : State) (b : Byte) (f : Frame) :
    (s.emitPacket b f).lenientKind = s.lenientKind := rfl

@[simp] theorem State.emitPacket_script (s : State) (b : Byte) (f : Frame) :
    (s.emitPacket b f).script = s.script := rfl

/-! ### `State.raiseError` -/

@[simp] theorem State.raiseError_rx (s : State) (e : RxError) (b : Byte) (p : FramePart) :
    (s.raiseError e b p).rx = s.rx.clear := rfl

@[simp] theorem State.raiseError_rxOut (s : State) (e : RxError) (b : Byte) (p : FramePart) :
    (s.raiseError e b p).rxOut = s.rxOut.report .error e b p := rfl

@[simp] theorem State.raiseError_tx (s : State) (e : RxError) (b : Byte) (p : FramePart) :
    (s.raiseError e b p).tx = s.tx := rfl

@[simp] theorem State.raiseError_lenientKind (s : State) (e : RxError) (b : Byte) (p : FramePart) :
    (s.raiseError e b p).lenientKind = s.lenientKind := rfl

@[simp] theorem State.raiseError_script (s : State) (e : RxError) (b : Byte) (p : FramePart) :
    (s.raiseError e b p).script = s.script := rfl

/-! ### `State.dropEdge` -/

@[simp] theorem State.dropEdge_rx (s : State) :
    (s.dropEdge).rx = s.rx := rfl

@[simp] theorem State.dropEdge_rxOut (s : State) :
    (s.dropEdge).rxOut = s.rxOut := rfl

@[simp] theorem State.dropEdge_tx (s : State) :
    (s.dropEdge).tx = s.tx := rfl

@[simp] theorem State.dropEdge_lenientKind (s : State) :
    (s.dropEdge).lenientKind = s.lenientKind := rfl

@[simp] theorem State.dropEdge_script (s : State) :
    (s.dropEdge).script = s.script.tail := rfl

/-! ### `State.sampleStrap` -/

@[simp] theorem State.sampleStrap_rx (s : State) (e : Edge) :
    (s.sampleStrap e).rx = s.rx := rfl

@[simp] theorem State.sampleStrap_rxOut (s : State) (e : Edge) :
    (s.sampleStrap e).rxOut = s.rxOut := rfl

@[simp] theorem State.sampleStrap_tx (s : State) (e : Edge) :
    (s.sampleStrap e).tx = s.tx := rfl

@[simp] theorem State.sampleStrap_lenientKind (s : State) (e : Edge) :
    (s.sampleStrap e).lenientKind = e.lenientKind := rfl

@[simp] theorem State.sampleStrap_script (s : State) (e : Edge) :
    (s.sampleStrap e).script = s.script := rfl

/-! ### `State.pushEdge` -/

@[simp] theorem State.pushEdge_rx (s : State) (e : Edge) :
    (s.pushEdge e).rx = s.rx := rfl

@[simp] theorem State.pushEdge_rxOut (s : State) (e : Edge) :
    (s.pushEdge e).rxOut = s.rxOut := rfl

@[simp] theorem State.pushEdge_tx (s : State) (e : Edge) :
    (s.pushEdge e).tx = s.tx := rfl

@[simp] theorem State.pushEdge_lenientKind (s : State) (e : Edge) :
    (s.pushEdge e).lenientKind = s.lenientKind := rfl

@[simp] theorem State.pushEdge_script (s : State) (e : Edge) :
    (s.pushEdge e).script = e :: s.script := rfl

/-! ### `Frame.toPart` -/

@[simp] theorem Frame.toPart_pre (f : Frame) :
    (f.toPart).pre = some f.pre := rfl

@[simp] theorem Frame.toPart_len (f : Frame) :
    (f.toPart).len = f.len := rfl

@[simp] theorem Frame.toPart_type (f : Frame) :
    (f.toPart).type = f.type := rfl

@[simp] theorem Frame.toPart_kind (f : Frame) :
    (f.toPart).kind = f.kind := rfl

@[simp] theorem Frame.toPart_body (f : Frame) :
    (f.toPart).body = f.body := rfl

@[simp] theorem Frame.toPart_csum (f : Frame) :
    (f.toPart).csum = f.csum := rfl

end Sys2Proof.Machine
end

