-- ==== Sys2Proof/Laws/Rx.lean ====
section
/-! SUPPORT. What the shared RX operations do: the outcome operations leave what `Delivers` and `Raises`
say, and RX.STEP is the row of its FSM state and byte. -/

namespace Sys2Proof.Machine

/-! ### Outcomes -/

/-- `Show` leaves what `Shows` says, for every record whose body fits the buffer (R140). -/
theorem State.shows_report (s t : State) (res : RxResult) (e : RxError) (b : Byte) (p : FramePart)
    (ht : t.rxOut = s.rxOut.report res e b p) (hp : p.body.length ≤ 252) : s.Shows t p := by
  have field : ∀ x : Option Byte, showsField x.isSome (x.getD 0) x := by
    intro x; cases x <;> exact ⟨rfl, rfl⟩
  constructor
  case cnt =>
    rw [ht, RxOutputs.report_oRxCnt, BitVec.toNat_ofNat]
    omega
  case body =>
    intro i hi
    rw [ht, RxOutputs.report_oRxBody, Memory.read_writeList, if_pos (by omega)]
    rfl
  case rest =>
    intro i hi
    rw [ht, RxOutputs.report_oRxBody, Memory.read_writeList, if_neg (by omega)]
  all_goals rw [ht]; exact field _

/-- `emit PACKET(f)` with `Clear()` (R140, R141). -/
theorem State.delivers_emitPacket (s : State) (b : Byte) (f : Frame) (hf : f.body.length ≤ 252) :
    s.Delivers (s.emitPacket b f) b f where
  valid := rfl
  res := rfl
  err := rfl
  byte := rfl
  shows := s.shows_report _ _ _ _ _ rfl hf
  cleared := ⟨rfl, rfl, rfl, rfl, rfl, rfl, rfl⟩
  outside := ⟨rfl, rfl, rfl⟩

/-- The error entry (R224). -/
theorem State.raises_raiseError (s : State) (e : RxError) (b : Byte) (p : FramePart)
    (hp : p.body.length ≤ 252) : s.Raises (s.raiseError e b p) e b p where
  valid := rfl
  res := rfl
  err := rfl
  byte := rfl
  shows := s.shows_report _ _ _ _ _ rfl hp
  cleared := ⟨rfl, rfl, rfl, rfl, rfl, rfl, rfl⟩
  outside := ⟨rfl, rfl, rfl⟩

/-- What the field group reads as after `Show` (R33, R140). -/
theorem State.shownFields_report (s t : State) (res : RxResult) (e : RxError) (b : Byte)
    (p : FramePart) (ht : t.rxOut = s.rxOut.report res e b p) (hp : p.body.length ≤ 252) :
    t.shownFields = some p := by
  have hc : t.rxOut.oRxCnt.toNat = p.body.length := (s.shows_report t res e b p ht hp).cnt
  have hb : Memory.readFrom t.rxOut.oRxBody 0 t.rxOut.oRxCnt.toNat = some p.body := by
    rw [hc, ht]; exact Memory.readFrom_writeList _ _
  unfold State.shownFields
  rw [hb, ht]
  obtain ⟨pre, len, type, kind, body, csum⟩ := p
  cases pre <;> cases len <;> cases type <;> cases kind <;> cases csum <;> rfl

/-! ### RX.STEP -/

/-- The row found is one of the table's. -/
theorem firstRxRow_mem {rows : List RxRow} {w : BitVec 12} {r : RxRow}
    (h : firstRxRow rows w = some r) : r ∈ rows := by
  induction rows with
  | nil => cases h
  | cons q rest ih =>
    simp only [firstRxRow] at h
    split at h
    · cases h; simp
    · exact List.mem_cons_of_mem _ (ih h)

/-- RX.STEP is the instruction that its RXSTEP word decodes to (R140). -/
theorem exec_rxStep_of_decode {tx : Bool} {b : Byte} {s : State} {i : Instr}
    (h : decodeRxStep (s.rxWord b) = some i) : exec (.rxStep tx b) s = exec i s := by
  have hrow : ∀ r ∈ rxRows, ∀ l c, runRxRow (r.build l c) s = exec (r.build l c) s := by
    simp [rxRows, runRxRow, exec]
  show execRxStep b s = exec i s
  unfold execRxStep
  rw [h]
  unfold decodeRxStep at h
  obtain ⟨r, hr, rfl⟩ := Option.map_eq_some_iff.1 h
  exact hrow r (firstRxRow_mem hr) _ _

theorem exec_rxStep_preamble {tx : Bool} {b : Byte} {s : State} (h : s.rx.rxState = .preamble) :
    exec (.rxStep tx b) s =
      exec (if b = 0x01 then .rxPreSof s.lenientKind else if b = 0x06 then .rxPreAck s.lenientKind
        else if b = 0x15 then .rxPreNak s.lenientKind
        else if b = 0x18 then .rxPreCan s.lenientKind else .rxPreBad s.lenientKind b) s :=
  exec_rxStep_of_decode (by rw [State.rxWord, h]; exact decodeRxStep_preamble _ _)

theorem exec_rxStep_length {tx : Bool} {b : Byte} {s : State} (h : s.rx.rxState = .length) :
    exec (.rxStep tx b) s =
      exec (if b.toNat < 2 then .rxLenBadA s.lenientKind b
        else if b = 0x02 then .rxLenBadB s.lenientKind else .rxLenOk s.lenientKind b) s :=
  exec_rxStep_of_decode (by rw [State.rxWord, h]; exact decodeRxStep_length _ _)

theorem exec_rxStep_packetType {tx : Bool} {b : Byte} {s : State}
    (h : s.rx.rxState = .packetType) :
    exec (.rxStep tx b) s =
      exec (if b = 0x00 then .rxTypeReq s.lenientKind
        else if b = 0x01 then .rxTypeRsp s.lenientKind else .rxTypeBad s.lenientKind b) s :=
  exec_rxStep_of_decode (by rw [State.rxWord, h]; exact decodeRxStep_packetType _ _)

theorem exec_rxStep_messageType {tx : Bool} {b : Byte} {s : State}
    (h : s.rx.rxState = .messageType) :
    exec (.rxStep tx b) s =
      exec (if b = 0x00 then .rxKindK00 s.lenientKind
        else if b = 0x02 then .rxKindK02 s.lenientKind
        else if b = 0x04 then .rxKindK04 s.lenientKind
        else if b = 0x05 then .rxKindK05 s.lenientKind
        else if b = 0x07 then .rxKindK07 s.lenientKind
        else if b = 0x13 then .rxKindK13 s.lenientKind
        else if b = 0x49 then .rxKindK49 s.lenientKind
        else if s.lenientKind then .rxKindUnkLenient b else .rxKindUnkStrict b) s :=
  exec_rxStep_of_decode (by rw [State.rxWord, h]; exact decodeRxStep_messageType _ _)

theorem exec_rxStep_body {tx : Bool} {b : Byte} {s : State} (h : s.rx.rxState = .body) :
    exec (.rxStep tx b) s = exec (.rxBody s.lenientKind b) s :=
  exec_rxStep_of_decode (by rw [State.rxWord, h]; exact decodeRxStep_body _ _)

theorem exec_rxStep_checksum {tx : Bool} {b : Byte} {s : State} (h : s.rx.rxState = .checksum) :
    exec (.rxStep tx b) s = exec (.rxCsum s.lenientKind b) s :=
  exec_rxStep_of_decode (by rw [State.rxWord, h]; exact decodeRxStep_checksum _ _)

/-- In MESSAGE_TYPE a byte is stored as the kind, or raises UnknownMessageType: seven rows and the
lenient row share one rule (R149 to R151). -/
theorem exec_rxStep_kind {tx : Bool} {b : Byte} {s : State} (h : s.rx.rxState = .messageType) :
    exec (.rxStep tx b) s =
      if b ∈ Config.knownKinds ∨ s.lenientKind = true then rxKindOk b s
      else execRxKindUnkStrict b s := by
  rw [exec_rxStep_messageType h]
  by_cases hb : b ∈ Config.knownKinds
  · rw [if_pos (show b ∈ Config.knownKinds ∨ s.lenientKind = true from Or.inl hb)]
    simp only [Config.knownKinds, List.mem_cons, List.not_mem_nil, or_false] at hb
    rcases hb with rfl | rfl | rfl | rfl | rfl | rfl | rfl <;> rfl
  · have hb' := hb
    simp only [Config.knownKinds, List.mem_cons, List.not_mem_nil, or_false, not_or] at hb'
    obtain ⟨h0, h1, h2, h3, h4, h5, h6⟩ := hb'
    simp only [h0, h1, h2, h3, h4, h5, h6, hb, if_false, false_or]
    cases s.lenientKind <;> rfl

/-- INVERSION of RX.STEP: a next state ends in no outcome, in a packet, or in the error entry, and the
record shown fits the buffer (R140, R156). -/
theorem exec_rxStep_cases {tx : Bool} {b : Byte} {s t : State}
    (h : exec (.rxStep tx b) s = .next t) :
    (∃ r, t = s.noOutcome r) ∨ (∃ f, f.body.length ≤ 252 ∧ t = s.emitPacket b f) ∨
    (∃ e p, e ≠ .none ∧ p.body.length ≤ 252 ∧ t = s.raiseError e b p) := by
  have same : ∀ {t u : State}, (Host.Outcome.next t : Result) = .next u → u = t :=
    fun h => by cases h; rfl
  cases hs : s.rx.rxState with
  | preamble =>
    rw [exec_rxStep_preamble hs] at h
    split_ifs at h with h1 h2 h3 h4
    · exact .inl ⟨_, same h⟩
    · subst h2; exact .inr (.inl ⟨_, (by exact Nat.zero_le 252), same h⟩)
    · subst h3; exact .inr (.inl ⟨_, (by exact Nat.zero_le 252), same h⟩)
    · subst h4; exact .inr (.inl ⟨_, (by exact Nat.zero_le 252), same h⟩)
    · exact .inr (.inr ⟨_, _, by decide, (by exact Nat.zero_le 252), same h⟩)
  | length =>
    rw [exec_rxStep_length hs] at h
    split_ifs at h with h1 h2
    · exact .inr (.inr ⟨_, _, by decide, (by exact Nat.zero_le 252), same h⟩)
    · subst h2; exact .inr (.inr ⟨_, _, by decide, (by exact Nat.zero_le 252), same h⟩)
    · exact .inl ⟨_, same h⟩
  | packetType =>
    rw [exec_rxStep_packetType hs] at h
    split_ifs at h with h1 h2
    · exact .inl ⟨_, same h⟩
    · exact .inl ⟨_, same h⟩
    · exact .inr (.inr ⟨_, _, by decide, (by exact Nat.zero_le 252), same h⟩)
  | messageType =>
    rw [exec_rxStep_kind hs] at h
    split_ifs at h with h1
    · exact .inl ⟨_, same h⟩
    · exact .inr (.inr ⟨_, _, by decide, (by exact Nat.zero_le 252), same h⟩)
  | body =>
    rw [exec_rxStep_body hs] at h
    simp only [exec, execRxBody] at h
    split_ifs at h with h1
    · exact .inl ⟨_, same h⟩
    · exact .inl ⟨_, same h⟩
  | checksum =>
    rw [exec_rxStep_checksum hs] at h
    simp only [exec, execRxCsum, State.withBody] at h
    split at h
    · cases h
    · next hc =>
      replace hc : ¬ 252 < s.rx.rxCnt.toNat := hc
      split at h
      · next body hb =>
        rw [Memory.readFrom_eq_some] at hb
        have hl : body.length ≤ 252 := by omega
        split_ifs at h
        · exact .inr (.inl ⟨_, hl, same h⟩)
        · exact .inr (.inr ⟨_, _, by decide, hl, same h⟩)
      · cases h

/-- RX.STEP leaves TXS, the strap and the script alone. -/
theorem exec_rxStep_outside {tx : Bool} {b : Byte} {s t : State}
    (h : exec (.rxStep tx b) s = .next t) : s.SameOutsideRx t := by
  rcases exec_rxStep_cases h with ⟨r, rfl⟩ | ⟨f, -, rfl⟩ | ⟨e, p, -, -, rfl⟩ <;>
    exact ⟨rfl, rfl, rfl⟩

end Sys2Proof.Machine
end

