-- ==== Sys2Proof/Laws/Step.lean ====
section
/-! SUPPORT. What a step does (R89, R204, R261), and what the operations of one edge share. -/

namespace Sys2Proof.Machine

/-- The operations of an edge with reset. -/
theorem Edge.instrs_reset (e : Edge) (h : e.rst = true) :
    e.instrs = [.reset e.iRxValid e.iTxReq] := by
  unfold Edge.instrs Edge.portWord
  rw [decodePort_rx, h]
  rfl

/-- The operations of an edge without reset: one RX operation, one TX operation. -/
theorem Edge.instrs_run (e : Edge) (h : e.rst = false) :
    e.instrs =
      [if e.iRxValid then .rxStep e.iTxReq e.iRxByte else .rxIdle e.iTxReq,
       if e.iTxReq then .txFrame e.iRxValid e.iTx else .txIdle e.iRxValid] := by
  unfold Edge.instrs Edge.portWord
  rw [decodePort_rx, decodePort_tx, h]
  cases e.iRxValid <;> cases e.iTxReq <;> rfl

/-- The step on an edge with reset. -/
theorem step_reset (s : State) (h : s.nextEdge.rst = true) :
    step s = exec (.reset s.nextEdge.iRxValid s.nextEdge.iTxReq)
      (s.dropEdge.sampleStrap s.nextEdge) := by
  simp [step, Edge.strapAllowed, h, Edge.instrs_reset, runInstrs, exec, execReset]

/-- The step on an edge without reset that keeps the strap: the RX operation, then the TX operation. -/
theorem step_run (s : State) (h : s.nextEdge.rst = false)
    (hl : s.nextEdge.lenientKind = s.lenientKind) :
    step s = runInstrs exec
      [if s.nextEdge.iRxValid then .rxStep s.nextEdge.iTxReq s.nextEdge.iRxByte
        else .rxIdle s.nextEdge.iTxReq,
       if s.nextEdge.iTxReq then .txFrame s.nextEdge.iRxValid s.nextEdge.iTx
        else .txIdle s.nextEdge.iRxValid] s.dropEdge := by
  have hd : s.dropEdge.sampleStrap s.nextEdge = s.dropEdge := by
    rw [State.sampleStrap, hl]; rfl
  simp only [step, Edge.strapAllowed, h, hl, hd, Bool.false_or, beq_self_eq_true, if_true]
  rw [Edge.instrs_run _ h]

/-- The step on an edge without reset that moves the strap (R261). -/
theorem step_strapChanged (s : State) (h : s.nextEdge.rst = false)
    (hl : s.nextEdge.lenientKind ≠ s.lenientKind) : step s = .refused .strapChanged := by
  simp [step, Edge.strapAllowed, h, hl]

@[simp] theorem runInstrs_nil (run : Instr → State → Result) (s : State) :
    runInstrs run [] s = .next s := rfl

/-- A run goes on where its first operation does. -/
theorem runInstrs_cons_next {run : Instr → State → Result} {i : Instr} {s t : State}
    (h : run i s = .next t) (rest : List Instr) :
    runInstrs run (i :: rest) s = runInstrs run rest t := by
  simp only [runInstrs, h]

/-- A run stops where its first operation does. -/
theorem runInstrs_cons_fault {run : Instr → State → Result} {i : Instr} {s : State} {r : Fault}
    (h : run i s = .fault r) (rest : List Instr) : runInstrs run (i :: rest) s = .fault r := by
  simp only [runInstrs, h]

theorem runInstrs_cons_refused {run : Instr → State → Result} {i : Instr} {s : State}
    {r : Refusal} (h : run i s = .refused r) (rest : List Instr) :
    runInstrs run (i :: rest) s = .refused r := by
  simp only [runInstrs, h]

/-- A run of operations over a concatenation. -/
theorem runInstrs_append (run : Instr → State → Result) (is js : List Instr) (s : State) :
    runInstrs run (is ++ js) s =
      match runInstrs run is s with
      | .next t => runInstrs run js t
      | .fault r => .fault r
      | .refused r => .refused r := by
  induction is generalizing s with
  | nil => rfl
  | cons i rest ih =>
    simp only [List.cons_append, runInstrs]
    cases run i s with
    | next t => exact ih t
    | fault r => rfl
    | refused r => rfl

/-- A run of the machine goes on where its first step does. -/
theorem core_run_next {n : Nat} {s t : State} (h : step s = .next t) :
    Host.Core.run Sys2Proof.core (n + 1) s = Host.Core.run Sys2Proof.core n t := by
  have run : ∀ (M : Host.Core) (s t : M.State), M.step s = .next t →
      M.run (n + 1) s = M.run n t := fun M s t h => by simp only [Host.Core.run, h]
  exact run Sys2Proof.core s t h

/-- A run of the machine stops where its first step faults. -/
theorem core_run_fault {n : Nat} {s : State} {r : Fault} (h : step s = .fault r) :
    Host.Core.run Sys2Proof.core (n + 1) s = .fault r := by
  have run : ∀ (M : Host.Core) (s : M.State) (r : M.Fault), M.step s = .fault r →
      M.run (n + 1) s = .fault r := fun M s r h => by simp only [Host.Core.run, h]
  exact run Sys2Proof.core s r h

/-- A run of the machine stops where its first step refuses. -/
theorem core_run_refused {n : Nat} {s : State} {r : Refusal} (h : step s = .refused r) :
    Host.Core.run Sys2Proof.core (n + 1) s = .refused r := by
  have run : ∀ (M : Host.Core) (s : M.State) (r : M.Refusal), M.step s = .refused r →
      M.run (n + 1) s = .refused r := fun M s r h => by simp only [Host.Core.run, h]
  exact run Sys2Proof.core s r h

/-- TX.FRAME always completes, with the TX outputs alone changed (R183). -/
theorem exec_txFrame_cases (rx : Bool) (d : TxDescriptor) (s : State) :
    (∃ f, acceptedFrame s.lenientKind d = some f ∧
      exec (.txFrame rx d) s = .next { s with tx := s.tx.sendFrame (serialize f) }) ∨
    (acceptedFrame s.lenientKind d = none ∧
      exec (.txFrame rx d) s = .next { s with tx := s.tx.rejectFrame }) := by
  show (∃ f, _ ∧ execTxFrame d s = _) ∨ (_ ∧ execTxFrame d s = _)
  unfold execTxFrame
  cases h : acceptedFrame s.lenientKind d with
  | some f => exact .inl ⟨f, rfl, rfl⟩
  | none => exact .inr ⟨rfl, rfl⟩

/-- Log 15: a candidate frame with `kind` absent fails R31's length clause as well, so TX.FRAME answers the
same whichever way R31's clause on `kind` is read. -/
theorem create_length_without_kind {d : TxDescriptor} {f : Frame} {len : Byte}
    (h : create d = some f) (hk : f.kind = none) (hl : f.len = some len) :
    len.toNat ≠ 3 + f.body.length := by
  have hmsg : kindArg d = none → d.msgV = false := by cases hm : d.msgV <;> simp [kindArg, hm]
  have hbody : (bodyArg d).length = d.cnt.toNat := by
    simp [bodyArg]; omega
  unfold create at h
  split at h
  · cases h; cases hl
  · split at h
    · cases h
      cases hl
      have hm := hmsg hk
      simp only [computedLength, hm] at *
      rw [BitVec.toNat_ofNat, hbody]
      split <;> simp <;> omega
    · cases h

end Sys2Proof.Machine
end

