-- ==== Sys2Proof/Tests/Slice0.lean ====
section
/-! SUPPORT. The model's own tests: well-formedness, words written out from the encoding tables, one
step per test with the spec's own expected values (95_test_vectors.md), and a state for each set of
hypotheses that the statements assume. -/

namespace Sys2Proof.Tests

open Sys2Proof.Machine

/-! ### Well-formedness: an ill-formed term for each check (R91) -/

theorem test_illFormed_preBad : (Instr.rxPreBad false 0x06).wellFormed = false := by decide
theorem test_illFormed_lenBadA : (Instr.rxLenBadA false 0x02).wellFormed = false := by decide
theorem test_illFormed_lenOk : (Instr.rxLenOk false 0x02).wellFormed = false := by decide
theorem test_illFormed_typeBad : (Instr.rxTypeBad false 0x01).wellFormed = false := by decide
theorem test_illFormed_kindUnkLenient : (Instr.rxKindUnkLenient 0x49).wellFormed = false := by
  decide
theorem test_illFormed_kindUnkStrict : (Instr.rxKindUnkStrict 0x00).wellFormed = false := by decide

/-- The same checks accept the neighbouring byte. -/
theorem test_wellFormed :
    (Instr.rxPreBad false 0x07).wellFormed = true ∧ (Instr.rxLenBadA true 0x01).wellFormed = true ∧
    (Instr.rxLenOk false 0x03).wellFormed = true ∧ (Instr.rxTypeBad true 0x02).wellFormed = true ∧
    (Instr.rxKindUnkLenient 0x48).wellFormed = true ∧
    (Instr.rxKindUnkStrict 0x01).wellFormed = true := by decide

/-! ### Decoding: words written out bit by bit from R89, R90, R91, R94 -/

/-- R89: `P = rst·4 + i_rx_valid·2 + i_tx_req`. -/
theorem test_decode_port :
    decodePort .rx 0b110 0x03 TxDescriptor.zero = some (.reset true false) ∧
    decodePort .rx 0b010 0xA5 TxDescriptor.zero = some (.rxStep false 0xA5) ∧
    decodePort .rx 0b001 0x00 TxDescriptor.zero = some (.rxIdle true) ∧
    decodePort .tx 0b011 0x00 TxDescriptor.zero = some (.txFrame true TxDescriptor.zero) ∧
    decodePort .tx 0b010 0x00 TxDescriptor.zero = some (.txIdle true) := by decide +kernel

/-- R91, state code 000. -/
theorem test_decode_preamble :
    decodeRxStep 0b0_000_00000001 = some (.rxPreSof false) ∧
    decodeRxStep 0b0_000_00000110 = some (.rxPreAck false) ∧
    decodeRxStep 0b1_000_00010101 = some (.rxPreNak true) ∧
    decodeRxStep 0b0_000_00011000 = some (.rxPreCan false) ∧
    decodeRxStep 0b1_000_00000010 = some (.rxPreBad true 0x02) := by decide

/-- R91, state code 001. -/
theorem test_decode_length :
    decodeRxStep 0b0_001_00000001 = some (.rxLenBadA false 0x01) ∧
    decodeRxStep 0b0_001_00000010 = some (.rxLenBadB false) ∧
    decodeRxStep 0b1_001_00000011 = some (.rxLenOk true 0x03) ∧
    decodeRxStep 0b0_001_11111111 = some (.rxLenOk false 0xFF) := by decide

/-- R91, state code 010. -/
theorem test_decode_type :
    decodeRxStep 0b0_010_00000000 = some (.rxTypeReq false) ∧
    decodeRxStep 0b1_010_00000001 = some (.rxTypeRsp true) ∧
    decodeRxStep 0b0_010_10000000 = some (.rxTypeBad false 0x80) := by decide

/-- R91, state code 011. -/
theorem test_decode_kind :
    decodeRxStep 0b0_011_00000000 = some (.rxKindK00 false) ∧
    decodeRxStep 0b0_011_00000010 = some (.rxKindK02 false) ∧
    decodeRxStep 0b0_011_00000100 = some (.rxKindK04 false) ∧
    decodeRxStep 0b1_011_00000101 = some (.rxKindK05 true) ∧
    decodeRxStep 0b0_011_00000111 = some (.rxKindK07 false) ∧
    decodeRxStep 0b1_011_00010011 = some (.rxKindK13 true) ∧
    decodeRxStep 0b0_011_01001001 = some (.rxKindK49 false) ∧
    decodeRxStep 0b1_011_00000011 = some (.rxKindUnkLenient 0x03) ∧
    decodeRxStep 0b0_011_00000011 = some (.rxKindUnkStrict 0x03) := by decide

/-- R91, state codes 100 to 111. -/
theorem test_decode_bodyChecksumReserved :
    decodeRxStep 0b0_100_00000110 = some (.rxBody false 0x06) ∧
    decodeRxStep 0b1_101_11111110 = some (.rxCsum true 0xFE) ∧
    decodeRxStep 0b0_110_00000000 = some (.rxRsv6 false 0x00) ∧
    decodeRxStep 0b1_111_11111111 = some (.rxRsv7 true 0xFF) := by decide

/-- R94: bit 1 is `csu_init`, bit 0 `csu_absorb`. -/
theorem test_decode_csu :
    decodeCsu 0b10 0x55 = .csuInit false ∧ decodeCsu 0b11 0x55 = .csuInit true ∧
    decodeCsu 0b01 0x55 = .csuAbsorb 0x55 ∧ decodeCsu 0b00 0x55 = .csuHold ∧
    decodeTableWord 2 0b01 = some (.csuAbsorb 0x00) := by decide

/-- What is no word of the table is refused by name. -/
theorem test_decode_refused :
    decodeTable 16 0x1000 = .error .rxStepTooWide ∧ decodeTable 8 8 = .error .portTooWide ∧
    decodeTable 2 4 = .error .csuTooWide ∧ decodeTable 7 0 = .error .noSuchWidth :=
  ⟨rfl, rfl, rfl, rfl⟩

/-! ### Small states and checks -/

/-- A state with the given in-flight registers, strict, all else as after reset. -/
def inFlight (st : RxState) (len type kind cnt acc : Byte) (body : List Byte) : State :=
  { State.reset with
    rx := { rxState := st, rxLen := len, rxType := type, rxKind := kind, rxCnt := cnt,
            rxBody := Memory.writeList [] 0 body, rxAcc := acc } }

/-- The same state under the lenient policy. -/
def lenient (s : State) : State := { s with lenientKind := true }

/-- The check holds in the next state; a stop fails it. -/
def holdsAfter (r : Result) (check : State → Bool) : Bool :=
  match r with
  | .next t => check t
  | _ => false

/-- An outcome: result code, error code, byte, and the fields shown. -/
def outcome (t : State) (res : BitVec 2) (err : BitVec 3) (b : Byte) (p : FramePart) : Bool :=
  t.rxOut.oRxValid && t.rxOut.oRxRes.code == res && t.rxOut.oRxErr.code == err &&
    t.rxOut.oRxByte == b && t.shownFields == some p && t.rx.rxState == .preamble

/-- No outcome, and the in-flight registers are as given. -/
def goesTo (t : State) (st : RxState) (len type kind cnt acc : Byte) : Bool :=
  !t.rxOut.oRxValid && t.rx.rxState == st && t.rx.rxLen == len && t.rx.rxType == type &&
    t.rx.rxKind == kind && t.rx.rxCnt == cnt && t.rx.rxAcc == acc

/-- The TX outputs: status code and the bytes to send. -/
def sends (t : State) (status : BitVec 3) (bytes : List Byte) : Bool :=
  t.tx.oTxValid && t.tx.oTxStatus.code == status && t.tx.oTxLen.toNat == bytes.length &&
    t.txBytes == some bytes

/-! ### Control operations (95 section 2.3) -/

/-- PORT-7: RESET with a byte in LENGTH; the byte is lost, every register at its reset value. -/
theorem test_reset :
    step { (inFlight .length 0 0 0 0 0xFF []) with
        script := [{ portEdge 0b110 false with iRxByte := 0x03 }] } = .next State.reset := by
  rfl

/-- PORT-8: a request during reset is lost. -/
theorem test_reset_request :
    holdsAfter (step { State.reset with
        script := [{ portEdge 0b101 false with iTx := txLine 0x06 none none [] }] })
      (fun t => !t.tx.oTxValid && t.tx.oTxLen == 0) = true := by decide

/-- PORT-4: one edge with a byte and a request. -/
theorem test_step_combined :
    holdsAfter (step { State.reset with
        script := [{ portEdge 0b011 false with iRxByte := 0x06, iTx := txLine 0x15 none none [] }] })
      (fun t => outcome t 1 0 0x06 (Frame.control 0x06).toPart && sends t 0 [0x15]) = true := by
  decide

/-- PORT-5: the idle edge clears the pulse and keeps the outcome. -/
theorem test_rxIdle :
    holdsAfter (exec (.rxIdle false) (State.reset.emitPacket 0x06 (Frame.control 0x06)))
      (fun t => !t.rxOut.oRxValid && t.rxOut.oRxRes.code == 1 && t.rxOut.oRxPre == 0x06) = true := by
  decide

/-- PORT-3: the idle edge clears the TX pulse and keeps the frame. -/
theorem test_txIdle :
    holdsAfter (exec (.txIdle false) { State.reset with tx := TxOutputs.reset.sendFrame [0x06] })
      (fun t => !t.tx.oTxValid && t.tx.oTxLen == 1 && t.txBytes == some [0x06]) = true := by
  decide

/-! ### Checksum (95 section 2.1) -/

/-- CS-1, CS-7, CS-10, CS-13. -/
theorem test_checksum :
    checksum 0x03 0x00 0x02 [] = 0xFE ∧ checksum 0x06 0x00 0x00 [0x01, 0x00, 0x00] = 0xF8 ∧
    checksum 0x09 0x00 0x13 [0x02, 0x03, 0x20, 0x01, 0xFF, 0x25] = 0x1F ∧
    checksum 0x03 0x00 0xFC [] = 0x00 := by decide

/-- CSU-6: INIT wins over ABSORB. -/
theorem test_csuInit :
    holdsAfter (exec (.csuInit true) (inFlight .length 0 0 0 0 0xFE []))
      (fun t => t.rx.rxAcc == 0xFF) = true := by decide

/-- CSU-5. -/
theorem test_csuAbsorb :
    holdsAfter (exec (.csuAbsorb 0x02) (inFlight .length 0 0 0 0 0xFC []))
      (fun t => t.rx.rxAcc == 0xFE) = true := by decide

/-- CSU-4. -/
theorem test_csuHold :
    holdsAfter (exec .csuHold (inFlight .length 0 0 0 0 0xFC []))
      (fun t => t.rx.rxAcc == 0xFC) = true := by decide

/-! ### RX (95 section 2.2): one byte of each vector -/

/-- RX-7. -/
theorem test_rxPreSof :
    holdsAfter (exec (.rxPreSof false) State.reset)
      (fun t => goesTo t .length 0 0 0 0 0xFF) = true := by decide

/-- RX-1, through RX.STEP. -/
theorem test_rxPreAck :
    holdsAfter (exec (.rxStep false 0x06) State.reset)
      (fun t => outcome t 1 0 0x06
        { pre := some 0x06, len := none, type := none, kind := none, body := [], csum := none }) =
      true := by decide

/-- RX-2. -/
theorem test_rxPreNak :
    holdsAfter (exec (.rxPreNak false) State.reset)
      (fun t => outcome t 1 0 0x15
        { pre := some 0x15, len := none, type := none, kind := none, body := [], csum := none }) =
      true := by decide

/-- RX-3. -/
theorem test_rxPreCan :
    holdsAfter (exec (.rxPreCan false) State.reset)
      (fun t => outcome t 1 0 0x18
        { pre := some 0x18, len := none, type := none, kind := none, body := [], csum := none }) =
      true := by decide

/-- RX-4. -/
theorem test_rxPreBad :
    holdsAfter (exec (.rxPreBad false 0x02) State.reset)
      (fun t => outcome t 2 1 0x02
        { pre := none, len := none, type := none, kind := none, body := [], csum := none }) =
      true := by decide

/-- RX-9. -/
theorem test_rxLenBadA :
    holdsAfter (exec (.rxLenBadA false 0x01) (inFlight .length 0 0 0 0 0xFF []))
      (fun t => outcome t 2 2 0x01
        { pre := some 0x01, len := some 0x01, type := none, kind := none, body := [],
          csum := none }) = true := by decide

/-- RX-10. -/
theorem test_rxLenBadB :
    holdsAfter (exec (.rxLenBadB false) (inFlight .length 0 0 0 0 0xFF []))
      (fun t => outcome t 2 2 0x02
        { pre := some 0x01, len := some 0x02, type := none, kind := none, body := [],
          csum := none }) = true := by decide

/-- RX-11, through RX.STEP. -/
theorem test_rxLenOk :
    holdsAfter (exec (.rxStep false 0x03) (inFlight .length 0 0 0 0 0xFF []))
      (fun t => goesTo t .packetType 0x03 0 0 0 0xFC) = true := by decide

/-- RX-16 up to its type byte. -/
theorem test_rxTypeReq :
    holdsAfter (exec (.rxTypeReq false) (inFlight .packetType 0x03 0 0 0 0xFC []))
      (fun t => goesTo t .messageType 0x03 0x00 0 0 0xFC) = true := by decide

/-- RX-15. -/
theorem test_rxTypeRsp :
    holdsAfter (exec (.rxTypeRsp false) (inFlight .packetType 0x03 0 0 0 0xFC []))
      (fun t => goesTo t .messageType 0x03 0x01 0 0 0xFD) = true := by decide

/-- RX-13. -/
theorem test_rxTypeBad :
    holdsAfter (exec (.rxTypeBad false 0x02) (inFlight .packetType 0x03 0 0 0 0xFC []))
      (fun t => outcome t 2 3 0x02
        { pre := some 0x01, len := some 0x03, type := none, kind := none, body := [],
          csum := none }) = true := by decide

/-- R149: each known kind byte, with a LENGTH that leaves a body. -/
theorem test_rxKind_known :
    [(Instr.rxKindK00 false, (0x00 : Byte)), (.rxKindK02 false, 0x02), (.rxKindK04 false, 0x04),
      (.rxKindK05 false, 0x05), (.rxKindK07 false, 0x07), (.rxKindK13 false, 0x13),
      (.rxKindK49 false, 0x49)].all (fun x =>
        holdsAfter (exec x.1 (inFlight .messageType 0x04 0x00 0 0 0xFB []))
          (fun t => goesTo t .body 0x04 0x00 x.2 0 (0xFB ^^^ x.2))) = true := by decide

/-- RX-19 up to its kind byte, through RX.STEP: a LENGTH of 3 has no body. -/
theorem test_rxKind_noBody :
    holdsAfter (exec (.rxStep false 0x02) (inFlight .messageType 0x03 0x00 0 0 0xFC []))
      (fun t => goesTo t .checksum 0x03 0x00 0x02 0 0xFE) = true := by decide

/-- RX-18, through RX.STEP. -/
theorem test_rxKindUnkLenient :
    holdsAfter (exec (.rxStep false 0x99) (lenient (inFlight .messageType 0x03 0x00 0 0 0xFC [])))
      (fun t => goesTo t .checksum 0x03 0x00 0x99 0 0x65) = true := by decide

/-- RX-16, through RX.STEP. -/
theorem test_rxKindUnkStrict :
    holdsAfter (exec (.rxStep false 0x99) (inFlight .messageType 0x03 0x00 0 0 0xFC []))
      (fun t => outcome t 2 4 0x99
        { pre := some 0x01, len := some 0x03, type := some 0x00, kind := none, body := [],
          csum := none }) = true := by decide

/-- RX-24. -/
theorem test_rxBody_last :
    holdsAfter (exec (.rxBody false 0xAA) (inFlight .body 0x04 0x00 0x13 0 0xE8 []))
      (fun t => goesTo t .checksum 0x04 0x00 0x13 1 0x42 &&
        Memory.readFrom t.rx.rxBody 0 1 == some [0xAA]) = true := by decide

/-- Program P4, e5: the body goes on, and a control value is data (R154). -/
theorem test_rxBody_more :
    holdsAfter (exec (.rxStep false 0x06) (inFlight .body 0x05 0x00 0x13 0 0xE9 []))
      (fun t => goesTo t .body 0x05 0x00 0x13 1 0xEF) = true := by decide

/-- RX-25. -/
theorem test_rxCsum_packet :
    holdsAfter (exec (.rxCsum false 0x42) (inFlight .checksum 0x04 0x00 0x13 1 0x42 [0xAA]))
      (fun t => outcome t 1 0 0x42
        { pre := some 0x01, len := some 0x04, type := some 0x00, kind := some 0x13, body := [0xAA],
          csum := some 0x42 } && t.rx.rxAcc == 0xFF) = true := by decide

/-- RX-20. -/
theorem test_rxCsum_bad :
    holdsAfter (exec (.rxStep false 0xFF) (inFlight .checksum 0x03 0x00 0x02 0 0xFE []))
      (fun t => outcome t 2 5 0xFF
        { pre := some 0x01, len := some 0x03, type := some 0x00, kind := some 0x02, body := [],
          csum := some 0xFF }) = true := by decide

/-! ### TX (95 section 2.4) -/

/-- TX-5. -/
theorem test_txFrame_structured :
    holdsAfter (exec (.txFrame false (txLine 0x01 (some 0x01) (some 0x49) [0x84, 0x01]))
        State.reset)
      (fun t => sends t 0 [0x01, 0x05, 0x01, 0x49, 0x84, 0x01, 0x37]) = true := by decide +kernel

/-- TX-8 to TX-17: no frame is sent, and the buffer keeps its content. -/
theorem test_txFrame_invalid :
    [txLine 0x01 none none [], txLine 0x01 (some 0x00) none [], txLine 0x01 none (some 0x02) [],
      txLine 0x01 none none [0xAA], txLine 0x06 (some 0x00) none [], txLine 0x06 none none [0x01],
      txLine 0x02 none none [], txLine 0x00 (some 0x00) (some 0x02) [],
      txLine 0x01 (some 0x02) (some 0x02) [], txLine 0x01 (some 0x00) (some 0x99) []].all
        (fun d => holdsAfter (exec (.txFrame false d)
            { State.reset with tx := TxOutputs.reset.sendFrame [0x06] })
          (fun t => sends t 6 [] && t.tx.oTxBuf == [(0, 0x06)])) = true := by decide +kernel

/-! ### Scripts (R97, R98) -/

/-- The first lines of program P6, up to its combined edge. -/
theorem test_scriptEdges :
    (scriptEdges false [.rst, .rx [0x01, 0x04], .idle 1, .rxTx 0x06 sendAck]).map Edge.portWord =
      [0b100, 0b010, 0b010, 0b000, 0b011] := by decide +kernel

/-! ### The host's placing of table words -/

/-- A placed RXSTEP word is the next step (log 2); 0xB01 is RX.KIND.UNK.LENIENT with byte 0x01. -/
theorem test_withFetchWord_rxStep :
    step (State.reset.withFetchWord 16 0xB01) =
      exec (.rxKindUnkLenient 0x01)
        { State.reset with rx := { RxInFlight.reset with rxState := .messageType },
                           lenientKind := true } := by rfl

/-- A placed port word is the next step. -/
theorem test_withFetchWord_port :
    step (State.reset.withFetchWord 8 0b010) = exec (.rxStep false 0x00) State.reset := by rfl

/-! ### Hypotheses that the statements assume: states and operands that meet them -/

/-- RX-24: CHECKSUM with one body byte. -/
def midFrame : State := inFlight .checksum 0x04 0x00 0x13 1 0x42 [0xAA]

/-- PREAMBLE after an outcome, an old byte in the body buffer. -/
def afterOutcome : State :=
  inFlight .preamble 0 0 0 0 0xFF [0xAA]

/-- The output registers after reset meet their bounds. -/
theorem outputs_ok (s : State) (h : s.rxOut = RxOutputs.reset) (k : s.tx = TxOutputs.reset) :
    s.rxOut.OutputsOk ∧ s.tx.OutputsOk := by
  rw [h, k]
  constructor <;> constructor <;> decide

theorem midFrame_inv : midFrame.Inv where
  fields := by constructor <;> decide
  acc := ⟨by decide, by decide, fun _ => ⟨[0xAA], by decide, by decide⟩⟩
  kind := fun _ => .inl (by decide)
  rxOut := (outputs_ok _ rfl rfl).1
  tx := (outputs_ok _ rfl rfl).2
  rxBodyWf := by decide
  oRxBodyWf := by decide
  oTxBufWf := by decide

theorem afterOutcome_inv : afterOutcome.Inv where
  fields := by constructor <;> decide
  acc := ⟨by decide, by decide, fun h => absurd h (by decide)⟩
  kind := fun h => absurd h (by decide)
  rxOut := (outputs_ok _ rfl rfl).1
  tx := (outputs_ok _ rfl rfl).2
  rxBodyWf := by decide
  oRxBodyWf := by decide
  oTxBufWf := by decide

/-- InvariantKeptByEveryStep, EveryEdgeIsAccepted: a state with the invariant whose step completes. -/
theorem witness_invariantKept :
    let s := midFrame.pushEdge (rxEdge false 0x42)
    s.Inv ∧ (∀ e rest, s.script = e :: rest → e.rst = true ∨ e.lenientKind = s.lenientKind) ∧
    ∃ t, step s = .next t := by
  refine ⟨?_, ?_, _, rfl⟩
  · obtain ⟨h1, h2, h3, h4, h5, h6, h7, h8⟩ := midFrame_inv
    exact ⟨h1, h2, h3, h4, h5, h6, h7, h8⟩
  · rintro e rest h
    cases h
    exact .inr rfl

/-- ReachableStatesHaveInvariant: a run of one edge from reset. -/
theorem witness_reachable :
    ∃ t, Host.Core.run Sys2Proof.core 1
      { State.reset with lenientKind := true, script := [rxEdge true 0x01] } = .next t :=
  ⟨_, rfl⟩

/-- BootLeavesResetState: two edges with reset and the lenient strap, one of them with a byte. -/
theorem witness_boot :
    [portEdge 0b100 true, portEdge 0b110 true] ≠ [] ∧
    (∀ e ∈ [portEdge 0b100 true, portEdge 0b110 true], e.rst = true ∧ e.lenientKind = true) ∧
    ({ midFrame with script := [portEdge 0b100 true, portEdge 0b110 true, Edge.idle true] } :
        State).script = [portEdge 0b100 true, portEdge 0b110 true] ++ [Edge.idle true] :=
  ⟨by simp, by simp [portEdge, Edge.idle], rfl⟩

/-- EncodeThenDecode: operands at the ends of the bytes that a row takes. -/
theorem witness_wellFormed :
    (Instr.rxLenOk true 0x03).wellFormed = true ∧ (Instr.rxLenOk false 0xFF).wellFormed = true ∧
    (Instr.rxLenBadA true 0x00).wellFormed = true := by decide

/-- StepRunsDecodedEdge, StrapMovesOnlyUnderReset: an edge with reset, one that keeps the strap, one
that moves it. -/
theorem witness_edges :
    let s := State.reset
    (portEdge 0b100 true).rst = true ∧ (portEdge 0b100 true).lenientKind ≠ s.lenientKind ∧
    (portEdge 0b011 false).rst = false ∧ (portEdge 0b011 false).lenientKind = s.lenientKind ∧
    (portEdge 0b011 true).rst = false ∧ (portEdge 0b011 true).lenientKind ≠ s.lenientKind ∧
    (s.pushEdge (portEdge 0b100 true)).script = portEdge 0b100 true :: [] := by decide +kernel

/-- StrapMovesOnlyUnderReset: a step that moves the strap. -/
theorem witness_strapMoves :
    ∃ t, step (State.reset.pushEdge (portEdge 0b100 true)) = .next t ∧
      t.lenientKind ≠ (State.reset.pushEdge (portEdge 0b100 true)).lenientKind :=
  ⟨_, rfl, by decide⟩

/-- StepWithNoScriptIdles: a state whose script has ended. -/
theorem witness_noScript : midFrame.script = [] := rfl

/-- RxAndTxCommute: an RX operation and a TX operation. -/
theorem witness_rxAndTx :
    (∃ tx b, Instr.rxStep true 0x06 = .rxStep tx b ∨ Instr.rxStep true 0x06 = .rxIdle tx) ∧
    ∃ rx d, Instr.txIdle true = .txFrame rx d ∨ Instr.txIdle true = .txIdle rx :=
  ⟨⟨_, _, .inl rfl⟩, ⟨_, TxDescriptor.zero, .inr rfl⟩⟩

/-- PulsesFollowTheEdge: an edge with reset, one with a byte and no outcome, one with an outcome and a
request. -/
theorem witness_pulses :
    (∃ t, step (midFrame.pushEdge (portEdge 0b100 false)) = .next t) ∧
    (∃ t, step (State.reset.pushEdge (rxEdge false 0x01)) = .next t ∧
      t.rxOut.oRxValid = false) ∧
    ∃ t, step (State.reset.pushEdge { portEdge 0b011 false with iRxByte := 0x06 }) = .next t ∧
      t.rxOut.oRxValid = true ∧ t.tx.oTxValid = true :=
  ⟨⟨_, rfl⟩, ⟨_, rfl, rfl⟩, ⟨_, rfl, rfl, rfl⟩⟩

/-- RunOfBytesIsFold: a script of byte edges, with an edge after them. -/
theorem witness_bytes :
    ({ State.reset with script := [rxEdge false 0x01, rxEdge false 0x03, Edge.idle false] } :
        State).script =
      [0x01, 0x03].map (rxEdge State.reset.lenientKind) ++ [Edge.idle false] := rfl

/-- CsuRunGivesChecksum: CSU-1 to CSU-5. -/
theorem witness_csuRun :
    [Instr.csuInit false, .csuAbsorb 0x03, .csuAbsorb 0x00, .csuHold, .csuAbsorb 0x02].filter
        (fun i => decide (i ≠ .csuHold)) =
      .csuInit false :: (([0x03, 0x00, 0x02] : List Byte) ++ []).map Instr.csuAbsorb := by
  decide +kernel

/-- ChecksumLaws: two orders of the same bytes, two unequal bytes, an error pattern of equal length
that is missed and one that is not. -/
theorem witness_checksumLaws :
    ([0x03, 0x02] : List Byte).Perm [0x02, 0x03] ∧ (0x00 : Byte) ≠ 0xFF ∧
    ([0x03, 0x02] : List Byte).length = ([0x80, 0x80] : List Byte).length ∧
    xorFold 0x00 [0x80, 0x80] = 0x00 ∧ xorFold 0x00 [0x80, 0x01] ≠ 0x00 := by decide

/-- ValidateChecksumCases: a SOF frame with a field absent, and a preamble outside the enumeration. -/
theorem witness_validate :
    (Frame.control 0x01).pre = 0x01 ∧ (Frame.control 0x01).csum = none ∧
    (Frame.control 0x02).pre ∉ ([0x01, 0x06, 0x15, 0x18] : List Byte) ∧
    (Frame.control 0x18).pre = 0x18 := by decide

/-- RxRulesDriveTheCsu: both sides complete. -/
theorem witness_driveCsu :
    (∃ t, exec (.rxPreSof false) midFrame = .next t) ∧
    (∃ u, exec (.csuInit false) midFrame = .next u) ∧
    (∃ u, exec (.csuAbsorb 0xAA) midFrame = .next u) ∧
    (∃ t, exec (.rxLenOk false 0xAA) midFrame = .next t) ∧
    (∃ t, exec (.rxKindUnkLenient 0xAA) midFrame = .next t) ∧
    (∃ t, exec (.rxBody false 0xAA) midFrame = .next t) ∧
    (∃ t, exec (.rxTypeRsp false) midFrame = .next t) ∧
    ∃ t, exec (.rxKindK13 false) midFrame = .next t :=
  ⟨⟨_, rfl⟩, ⟨_, rfl⟩, ⟨_, rfl⟩, ⟨_, rfl⟩, ⟨_, rfl⟩, ⟨_, rfl⟩, ⟨_, rfl⟩, ⟨_, rfl⟩⟩

/-- The statements about RX.STEP in one FSM state: a state of each, with the bytes at the ends of the
ranges that they take. -/
theorem witness_rxStates :
    State.reset.rx.rxState = .preamble ∧ (0x00 : Byte) ∉ ([0x01, 0x06, 0x15, 0x18] : List Byte) ∧
    (inFlight .length 0 0 0 0 0xFF []).rx.rxState = .length ∧ 3 ≤ (0x03 : Byte).toNat ∧
    3 ≤ (0xFF : Byte).toNat ∧
    (inFlight .packetType 0x03 0 0 0 0xFC []).rx.rxState = .packetType ∧
    (0x02 : Byte) ≠ 0x00 ∧ (0x02 : Byte) ≠ 0x01 ∧
    (inFlight .messageType 0x03 0 0 0 0xFC []).rx.rxState = .messageType ∧
    (inFlight .messageType 0x03 0 0 0 0xFC []).lenientKind = false ∧
    (lenient (inFlight .messageType 0x03 0 0 0 0xFC [])).lenientKind = true ∧
    (0x48 : Byte) ∉ ([0x00, 0x02, 0x04, 0x05, 0x07, 0x13, 0x49] : List Byte) ∧
    (0x06 : Byte) ∈ ([0x01, 0x06, 0x15, 0x18] : List Byte) := by decide

/-- BodyByteIsAppended, PreambleValuesInsideFrameAreData, BufferRulesStopOutsideBuffer: the last
element of the buffer with the frame's last body byte, a byte that is not the last, and the index just
outside. -/
theorem witness_body :
    (inFlight .body 0xFF 0x01 0x04 251 0 []).rx.rxCnt.toNat ≤ 251 ∧
    ((inFlight .body 0xFF 0x01 0x04 251 0 []).rx.rxCnt.toNat : Int) + 1 =
      ((inFlight .body 0xFF 0x01 0x04 251 0 []).rx.rxLen.toNat : Int) - 3 ∧
    ((inFlight .body 0x05 0x01 0x04 0 0 []).rx.rxCnt.toNat : Int) + 1 ≠
      ((inFlight .body 0x05 0x01 0x04 0 0 []).rx.rxLen.toNat : Int) - 3 ∧
    (inFlight .body 0xFF 0x01 0x04 0 0 []).rx.rxState = .body ∧
    252 ≤ (inFlight .body 0xFF 0x01 0x04 252 0 []).rx.rxCnt.toNat ∧
    252 < (inFlight .body 0xFF 0x01 0x04 253 0 []).rx.rxCnt.toNat := by decide

/-- BufferRulesStopOutsideBuffer: a full count over an unwritten buffer. -/
theorem witness_unwritten :
    let s := inFlight .checksum 0xFF 0x01 0x04 252 0 []
    s.rx.rxCnt.toNat ≤ 252 ∧ ∃ i, i < s.rx.rxCnt.toNat ∧ Memory.read s.rx.rxBody i = none :=
  ⟨by decide, 0, by decide, by decide⟩

/-- ChecksumByteDeliversOrRejects: RX-37, the largest body, every element written. -/
theorem witness_checksumByte (body : List Byte) (h : body.length = 252) :
    let s := inFlight .checksum 0xFF 0x01 0x04 252 0x05 body
    s.rx.rxState = .checksum ∧ s.rx.rxCnt.toNat ≤ 252 ∧ body.length = s.rx.rxCnt.toNat ∧
    ∀ i, i < body.length → Memory.read s.rx.rxBody i = body[i]? := by
  refine ⟨rfl, by show (252 : Byte).toNat ≤ 252; decide, h, fun i hi => ?_⟩
  show Memory.read (Memory.writeList [] 0 body) i = _
  rw [Memory.read_writeList, if_pos (by omega)]
  rfl

/-- A body of 252 bytes; RX-25's checksum byte delivers, another does not. -/
theorem witness_checksumByte_values :
    (List.replicate 252 (0x07 : Byte)).length = 252 ∧
    (0x42 : Byte) = checksum 0x04 0x00 0x13 [0xAA] ∧
    (0x43 : Byte) ≠ checksum 0x04 0x00 0x13 [0xAA] := by decide +kernel

/-- RxStepCompletes, DeliveredFramesAreValid, OneOutcomePerByte, OutcomeResynchronizes: RX-25's last
byte, from a state with the invariant. -/
theorem witness_packet :
    midFrame.Inv ∧ ∃ t, exec (.rxStep false 0x42) midFrame = .next t ∧
      t.rxOut.oRxValid = true ∧ t.rxOut.oRxRes = .packet :=
  ⟨midFrame_inv, _, rfl, rfl, rfl⟩

/-- BytesBeforeLastOutcomeDoNotMatter: two states in PREAMBLE with different old body bytes. -/
theorem witness_resync :
    afterOutcome.Inv ∧ afterOutcome.rx.rxState = .preamble ∧
    State.reset.rx.rxState = .preamble ∧ afterOutcome.lenientKind = State.reset.lenientKind ∧
    afterOutcome.rx ≠ State.reset.rx ∧ ([0x01] : List Byte) ≠ [] :=
  ⟨afterOutcome_inv, rfl, rfl, rfl, by decide, by decide⟩

/-- DeliveredFrameReserializes: the ACK byte parses to the ACK frame. -/
theorem witness_parsesTo : ParsesTo [0x06] State.reset (Frame.control 0x06) := by
  refine ⟨fun k h1 h2 => ?_, _, rfl, rfl, rfl, rfl, by decide, rfl⟩
  simp only [List.length_cons, List.length_nil] at h2
  omega

/-- TransmittedFrameParsesBack, SentFramesPassTheCheck: a request sent with status OK (TX-4). -/
theorem witness_sent :
    ∃ t, exec (.txFrame false (txLine 0x01 (some 0x00) (some 0x02) [])) State.reset = .next t ∧
      t.tx.oTxStatus = .ok ∧ afterOutcome.rx.rxState = .preamble ∧
      afterOutcome.lenientKind = State.reset.lenientKind :=
  ⟨_, rfl, rfl, rfl, rfl⟩

/-- TxFrameSendsControlFrame: each control preamble (TX-1 to TX-3). -/
theorem witness_txControl :
    ∀ pre ∈ ([0x06, 0x15, 0x18] : List Byte),
      let d := txLine pre none none []
      d.pre ∈ ([0x06, 0x15, 0x18] : List Byte) ∧ d.typeV = false ∧ d.msgV = false ∧ d.cnt = 0 := by
  decide

/-- TxFrameSendsStructuredFrame: the shortest and the longest frame, and an unknown kind under the
lenient policy (TX-4, TX-20, TX-18). -/
theorem witness_txStructured :
    (txLine 0x01 (some 0x00) (some 0x02) []).cnt.toNat ≤ 252 ∧
    (txLine 0x01 (some 0x01) (some 0x04) (List.replicate 252 0x07)).cnt.toNat = 252 ∧
    (txLine 0x01 (some 0x01) (some 0x04) []).type ∈ ([0x00, 0x01] : List Byte) ∧
    (txLine 0x01 (some 0x01) (some 0x04) []).msg ∈
      ([0x00, 0x02, 0x04, 0x05, 0x07, 0x13, 0x49] : List Byte) ∧
    (txLine 0x01 (some 0x01) (some 0x04) []).typeV = true ∧
    (txLine 0x01 (some 0x01) (some 0x04) []).msgV = true ∧
    (lenient State.reset).lenientKind = true := by decide +kernel

/-- TxFrameRejectsEveryOtherDescriptor, TxFrameFollowsCreate: TX-19, one body byte too many. -/
theorem witness_txTooLong :
    let d := txLine 0x01 (some 0x00) (some 0x02) (List.replicate 253 0x00)
    252 < d.cnt.toNat ∧
    ¬ (d.pre ∈ ([0x06, 0x15, 0x18] : List Byte) ∧ d.typeV = false ∧ d.msgV = false ∧ d.cnt = 0) ∧
    ¬ (d.pre = 0x01 ∧ d.typeV = true ∧ d.msgV = true ∧ d.type ∈ ([0x00, 0x01] : List Byte) ∧
      (d.msg ∈ ([0x00, 0x02, 0x04, 0x05, 0x07, 0x13, 0x49] : List Byte) ∨
        State.reset.lenientKind = true) ∧ d.cnt.toNat ≤ 252) := by decide +kernel

/-- TxFrameFollowsCreate: a candidate frame that is valid, and a descriptor with none (TX-3, TX-14). -/
theorem witness_create :
    create (txLine 0x18 none none []) = some (Frame.control 0x18) ∧
    frameValid false (Frame.control 0x18) = true ∧
    create (txLine 0x02 none none []) = some (Frame.control 0x02) ∧
    frameValid false (Frame.control 0x02) = false := by decide

/-- CreateFollowsDescriptor: a descriptor for each length case, computed 0, 1, 254 and 255. -/
theorem witness_createLengths :
    computedLength (txLine 0x01 none none []) = 0 ∧
    computedLength (txLine 0x01 (some 0x00) none []) = 1 ∧
    computedLength (txLine 0x01 (some 0x00) (some 0x02) (List.replicate 252 0x07)) + 1 = 255 ∧
    255 < computedLength (txLine 0x01 (some 0x00) (some 0x02) (List.replicate 253 0x07)) + 1 := by
  decide +kernel

/-- PseudoOperationsSend: an accepted kind, and an unknown one under the strict policy. -/
theorem witness_pseudo :
    (0x02 : Byte) ∈ ([0x00, 0x02, 0x04, 0x05, 0x07, 0x13, 0x49] : List Byte) ∧
    (0x99 : Byte) ∉ ([0x00, 0x02, 0x04, 0x05, 0x07, 0x13, 0x49] : List Byte) ∧
    State.reset.lenientKind = false := by decide

/-- SerializeIsWireOrder: the lengths of the shortest and the longest structured frame. -/
theorem witness_serialize :
    (0x03 : Byte).toNat = 3 + ([] : List Byte).length ∧
    (0xFF : Byte).toNat = 3 + (List.replicate 252 (0x07 : Byte)).length := by decide +kernel

/-- IdleBetweenBytesChangesNothing: a run with an idle edge, and runs that complete, fault and
refuse. -/
theorem witness_idleBetween :
    (∀ i ∈ [Instr.rxStep false 0x06, .rxIdle false], ∃ tx, (∃ b, i = .rxStep tx b) ∨ i = .rxIdle tx) ∧
    (∃ u, runInstrs exec [Instr.rxStep false 0x06] State.reset = .next u) ∧
    runInstrs exec [Instr.rxStep false 0x06] (inFlight .body 0xFF 0x01 0x04 252 0 []) =
      .fault .bodyIndexOutOfRange ∧
    runInstrs exec [Instr.rxStep false 0x06] (inFlight .checksum 0x04 0x01 0x04 1 0 []) =
      .refused .unwrittenByte := by
  refine ⟨fun i hi => ?_, ⟨_, rfl⟩, rfl, rfl⟩
  simp only [List.mem_cons, List.not_mem_nil, or_false] at hi
  rcases hi with rfl | rfl
  · exact ⟨false, .inl ⟨_, rfl⟩⟩
  · exact ⟨false, .inr rfl⟩

/-- After RX-25 and TX-1: one body byte delivered, one byte to send. -/
def delivered : State :=
  { midFrame.emitPacket 0x42 (Frame.structured 0x04 0x00 0x13 [0xAA] 0x42) with
    tx := TxOutputs.reset.sendFrame [0x06] }

theorem delivered_inv : delivered.Inv where
  fields := by constructor <;> decide
  acc := ⟨by decide, by decide, fun h => absurd h (by decide)⟩
  kind := fun h => absurd h (by decide)
  rxOut := by constructor <;> decide
  tx := by constructor <;> decide
  rxBodyWf := by decide
  oRxBodyWf := by decide
  oTxBufWf := by decide

/-- HostReadsOnlyMeaningfulBytes: reads below and at the counts. -/
theorem witness_hostReads :
    delivered.Inv ∧ 0 < delivered.rxOut.oRxCnt.toNat ∧ delivered.rxOut.oRxCnt.toNat ≤ 1 ∧
    0 < delivered.tx.oTxLen.toNat ∧ delivered.tx.oTxLen.toNat ≤ 1 :=
  ⟨delivered_inv, by decide, by decide, by decide, by decide⟩

end Sys2Proof.Tests
end

section
/-! The invariant component by component: what each named update of a group of registers keeps of
`State.Inv` (R27, R28, R33, R38, R45). -/

namespace Sys2Proof.Machine

/-! ### The invariant of each group of registers -/

/-- The part of `State.Inv` about RXD's in-flight registers, under the strap `l`. -/
structure RxInFlight.Ok (l : Bool) (r : RxInFlight) : Prop where
  fields : r.FieldsOk
  acc : r.AccOk
  kind : r.rxState = .body ∨ r.rxState = .checksum → r.rxKind ∈ Config.knownKinds ∨ l = true
  wf : Memory.wf r.rxBody Config.bodyMax = true

/-- The part of `State.Inv` about RXD's output registers. -/
structure RxOutputs.Ok (o : RxOutputs) : Prop where
  outputs : o.OutputsOk
  wf : Memory.wf o.oRxBody Config.bodyMax = true

/-- The part of `State.Inv` about TXS's output registers. -/
structure TxOutputs.Ok (o : TxOutputs) : Prop where
  outputs : o.OutputsOk
  wf : Memory.wf o.oTxBuf Config.frameMax = true

/-- The invariant is that of its three groups; the script has no part in it. -/
theorem State.inv_iff (s : State) : s.Inv ↔ s.rx.Ok s.lenientKind ∧ s.rxOut.Ok ∧ s.tx.Ok := by
  constructor
  · rintro ⟨fields, acc, kind, rxOut, tx, rxBodyWf, oRxBodyWf, oTxBufWf⟩
    exact ⟨⟨fields, acc, kind, rxBodyWf⟩, ⟨rxOut, oRxBodyWf⟩, ⟨tx, oTxBufWf⟩⟩
  · rintro ⟨⟨fields, acc, kind, rxBodyWf⟩, ⟨rxOut, oRxBodyWf⟩, ⟨tx, oTxBufWf⟩⟩
    exact ⟨fields, acc, kind, rxOut, tx, rxBodyWf, oRxBodyWf, oTxBufWf⟩

/-! ### RXD's in-flight registers -/

/-- PREAMBLE with cleared fields meets the invariant, whatever the accumulator (R28). -/
theorem RxInFlight.ok_of_preamble {l : Bool} {r : RxInFlight} (hs : r.rxState = .preamble)
    (hf : r.rxLen = 0 ∧ r.rxType = 0 ∧ r.rxKind = 0 ∧ r.rxCnt = 0)
    (hw : Memory.wf r.rxBody Config.bodyMax = true) : r.Ok l where
  fields := by constructor <;> simp [hs, hf]
  acc := by constructor <;> simp [hs]
  kind := by simp [hs]
  wf := hw

theorem RxInFlight.reset_ok (l : Bool) : RxInFlight.reset.Ok l :=
  RxInFlight.ok_of_preamble rfl ⟨rfl, rfl, rfl, rfl⟩ rfl

/-- `Clear()` establishes the invariant from every state with a canonical body buffer (R141). -/
theorem RxInFlight.clear_ok (l : Bool) {r : RxInFlight}
    (hw : Memory.wf r.rxBody Config.bodyMax = true) : r.clear.Ok l :=
  RxInFlight.ok_of_preamble rfl ⟨rfl, rfl, rfl, rfl⟩ hw

/-- The in-flight registers with one body byte more (R152): `exec_rxBody_next` says that RX.BODY leaves
these. -/
def RxInFlight.appendBody (r : RxInFlight) (b : Byte) : RxInFlight :=
  { r with
    rxBody := Memory.write r.rxBody r.rxCnt.toNat b
    rxCnt := r.rxCnt + 1
    rxState := if r.rxCnt.toNat + 1 + 3 = r.rxLen.toNat then .checksum else .body
    rxAcc := r.rxAcc ^^^ b }

/-- How a byte `b` that yields no outcome moves the in-flight registers under the strap `l`: one
constructor per rule, guarded by the FSM state and the byte that select it (R142, R146, R147, R149,
R150, R152). -/
inductive RxInFlight.Advance (l : Bool) (b : Byte) (r : RxInFlight) : RxInFlight → Prop where
  | sof (hs : r.rxState = .preamble) :
      Advance l b r ({ r with rxState := .length, rxCnt := 0 }.driveCsu 0b10 0)
  | length (hs : r.rxState = .length) (hb : Config.lenMin ≤ b.toNat) :
      Advance l b r ({ r with rxLen := b, rxState := .packetType }.driveCsu 0b01 b)
  | packetType (hs : r.rxState = .packetType) (hb : b ∈ Config.knownTypes) :
      Advance l b r ({ r with rxType := b, rxState := .messageType }.driveCsu 0b01 b)
  | messageType (hs : r.rxState = .messageType) (hb : b ∈ Config.knownKinds ∨ l = true) :
      Advance l b r
        ({ r with
            rxKind := b,
            rxState := if r.rxLen = 3 then .checksum else .body }.driveCsu 0b01 b)
  | body (hs : r.rxState = .body) (hc : r.rxCnt.toNat < Config.bodyMax) :
      Advance l b r (r.appendBody b)

/-- With the first `rx_cnt` of the body bytes captured and absorbed, the invariant holds where the FSM
state is CHECKSUM exactly when that is the whole body (R28, R45). -/
theorem RxInFlight.ok_of_captured {l : Bool} {r : RxInFlight} {body : List Byte}
    (hs : r.rxState = if r.rxCnt.toNat + 3 = r.rxLen.toNat then .checksum else .body)
    (hcnt : r.rxCnt.toNat + 3 ≤ r.rxLen.toNat) (htype : r.rxType ∈ Config.knownTypes)
    (hkind : r.rxKind ∈ Config.knownKinds ∨ l = true)
    (hbody : Memory.readFrom r.rxBody 0 r.rxCnt.toNat = some body)
    (hacc : r.rxAcc = xorFold 0xFF ([r.rxLen, r.rxType, r.rxKind] ++ body))
    (hw : Memory.wf r.rxBody Config.bodyMax = true) : r.Ok l := by
  have hstate : (r.rxState = .checksum ∧ r.rxCnt.toNat + 3 = r.rxLen.toNat) ∨
      (r.rxState = .body ∧ r.rxCnt.toNat + 3 < r.rxLen.toNat) := by
    split at hs
    · next hall => exact .inl ⟨hs, hall⟩
    · next hmore => exact .inr ⟨hs, by omega⟩
  constructor
  case fields =>
    rcases hstate with ⟨hs, hc⟩ | ⟨hs, hc⟩ <;> constructor <;> simp [hs, htype] <;> omega
  case acc =>
    refine ⟨?_, ?_, fun _ => ⟨body, hbody, hacc⟩⟩ <;>
      rcases hstate with ⟨hs, -⟩ | ⟨hs, -⟩ <;> simp [hs]
  case kind => exact fun _ => hkind
  case wf => exact hw

/-- Every in-flight move keeps the invariant. -/
theorem RxInFlight.Ok.advance {l : Bool} {b : Byte} {r q : RxInFlight} (h : r.Ok l)
    (hq : RxInFlight.Advance l b r q) : q.Ok l := by
  cases hq with
  | sof hs =>
    obtain ⟨hlen, htype, hkind, -⟩ := h.fields.preamble hs
    refine ⟨?_, by constructor <;> simp, by simp, h.wf⟩
    constructor
    case length => exact fun _ => ⟨hlen, htype, hkind, rfl, rfl⟩
    all_goals simp
  | length hs hb =>
    obtain ⟨-, htype, hkind, hcnt, hacc⟩ := h.fields.length hs
    refine ⟨?_, ⟨fun _ => congrArg (· ^^^ b) hacc, by simp, by simp⟩, by simp, h.wf⟩
    constructor
    case packetType => exact fun _ => ⟨hb, htype, hkind, hcnt⟩
    all_goals simp
  | packetType hs hb =>
    obtain ⟨hlen, -, hkind, hcnt⟩ := h.fields.packetType hs
    refine ⟨?_, ⟨by simp, fun _ => congrArg (· ^^^ b) (h.acc.packetType hs), by simp⟩,
      by simp, h.wf⟩
    constructor
    case messageType => exact fun _ => ⟨hlen, hb, hkind, hcnt⟩
    all_goals simp
  | messageType hs hb =>
    obtain ⟨hlen, htype, -, hcnt⟩ := h.fields.messageType hs
    have hcnt' : r.rxCnt.toNat = 0 := by rw [hcnt]; rfl
    have hthree : r.rxLen = 3 ↔ r.rxCnt.toNat + 3 = r.rxLen.toNat := by
      rw [hcnt', ← BitVec.toNat_inj, eq_comm]; rfl
    refine RxInFlight.ok_of_captured (body := []) ?_ ?_ htype hb ?_ ?_ h.wf
    · simp only [RxInFlight.driveCsu_rxState, hthree]; rfl
    · show r.rxCnt.toNat + 3 ≤ r.rxLen.toNat
      omega
    · show Memory.readFrom r.rxBody 0 r.rxCnt.toNat = some []
      rw [hcnt']; rfl
    · exact congrArg (· ^^^ b) (h.acc.messageType hs)
  | body hs hc =>
    obtain ⟨-, htype, hcnt⟩ := h.fields.body hs
    obtain ⟨body, hbody, hacc⟩ := h.acc.bodyOrChecksum (.inl hs)
    have hnext : (r.rxCnt + 1).toNat = r.rxCnt.toNat + 1 := by
      rw [Config.bodyMax] at hc
      bv_omega
    refine RxInFlight.ok_of_captured (body := body ++ [b]) ?_ ?_ htype (h.kind (.inl hs)) ?_ ?_
      (Memory.wf_write _ b h.wf hc)
    · simp only [RxInFlight.appendBody, hnext]
    · simp only [RxInFlight.appendBody, hnext]; omega
    · simp only [RxInFlight.appendBody, hnext]
      exact Memory.readFrom_succ _ hbody
    · rw [← List.append_assoc, xorFold_concat]
      exact congrArg (· ^^^ b) hacc

/-! ### RXD's output registers -/

theorem RxOutputs.reset_ok : RxOutputs.reset.Ok where
  outputs := by constructor <;> decide
  wf := rfl

/-- Clearing the pulse keeps the invariant. -/
theorem RxOutputs.Ok.quiet {o : RxOutputs} (h : o.Ok) : o.quiet.Ok where
  outputs := { h.outputs with pulse := by simp }
  wf := h.wf

/-- Reporting an outcome keeps the invariant, where the error agrees with the result and the body fits
the buffer (R140). -/
theorem RxOutputs.Ok.report {o : RxOutputs} {res : RxResult} {e : RxError} {p : FramePart}
    (h : o.Ok) (b : Byte) (hres : res ≠ .none) (he : e = .none ↔ res ≠ .error)
    (hp : p.body.length ≤ 252) : (o.report res e b p).Ok := by
  have habsent : ∀ x : Option Byte, x.isSome = false → x.getD 0 = 0 := by
    intro x hx; cases x <;> simp_all
  have hcnt : (o.report res e b p).oRxCnt.toNat = p.body.length := by
    rw [RxOutputs.report_oRxCnt, BitVec.toNat_ofNat]
    omega
  constructor
  case outputs =>
    constructor
    case errorCode => exact he
    case pulse => exact fun _ => hres
    case count => rw [hcnt]; exact hp
    case written =>
      rw [hcnt, RxOutputs.report_oRxBody, Memory.readFrom_writeList]
      rfl
    all_goals exact habsent _
  case wf =>
    refine Memory.wf_writeList _ p.body h.wf ?_
    rw [Config.bodyMax]; omega

/-! ### TXS's output registers -/

theorem TxOutputs.reset_ok : TxOutputs.reset.Ok where
  outputs := by constructor <;> decide
  wf := rfl

/-- Clearing the pulse keeps the invariant. -/
theorem TxOutputs.Ok.quiet {o : TxOutputs} (h : o.Ok) : o.quiet.Ok where
  outputs := ⟨h.outputs.count, h.outputs.invalid, h.outputs.written⟩
  wf := h.wf

/-- InvalidFrame leaves no byte to read (R183). -/
theorem TxOutputs.Ok.rejectFrame {o : TxOutputs} (h : o.Ok) : o.rejectFrame.Ok where
  outputs := ⟨Nat.zero_le _, fun _ => rfl, rfl⟩
  wf := h.wf

/-- Sending a frame that fits the buffer keeps the invariant (R183). -/
theorem TxOutputs.Ok.sendFrame {o : TxOutputs} {bytes : List Byte} (h : o.Ok)
    (hb : bytes.length ≤ Config.frameMax) : (o.sendFrame bytes).Ok := by
  have hlen : (o.sendFrame bytes).oTxLen.toNat = bytes.length := by
    rw [Config.frameMax] at hb
    rw [TxOutputs.sendFrame_oTxLen, BitVec.toNat_ofNat]
    omega
  constructor
  case outputs =>
    refine ⟨by rw [hlen]; exact hb, by simp, ?_⟩
    rw [hlen, TxOutputs.sendFrame_oTxBuf, Memory.readFrom_writeList]
    rfl
  case wf => exact Memory.wf_writeList _ bytes h.wf (by omega)

end Sys2Proof.Machine
end

section
/-! INVERSION of the operations of an edge: where RX.STEP yields no outcome, what a TX operation leaves,
and what a step is made of (R89, R140, R183, R204). -/

namespace Sys2Proof.Machine

/-- INVERSION of RX.BODY: it completes below the end of the buffer, without an outcome (R152). -/
theorem exec_rxBody_next {l : Bool} {b : Byte} {s t : State}
    (h : exec (.rxBody l b) s = .next t) :
    s.rx.rxCnt.toNat < Config.bodyMax ∧ t = s.noOutcome (s.rx.appendBody b) := by
  change execRxBody b s = .next t at h
  unfold execRxBody at h
  split at h
  · next hc => cases h; exact ⟨hc, rfl⟩
  · cases h

/-- RX.CSUM ends in an outcome wherever it completes (R153). -/
theorem exec_rxCsum_valid {l : Bool} {b : Byte} {s t : State}
    (h : exec (.rxCsum l b) s = .next t) : t.rxOut.oRxValid = true := by
  simp only [exec, execRxCsum, State.withBody] at h
  split at h
  · cases h
  · split at h
    · split at h <;> cases h <;> rfl
    · cases h

/-- INVERSION of RX.STEP without an outcome: the in-flight registers make the move of their FSM state
and the byte (R140). -/
theorem exec_rxStep_advance {tx : Bool} {b : Byte} {s t : State}
    (h : exec (.rxStep tx b) s = .next t) (hv : t.rxOut.oRxValid = false) :
    ∃ r, RxInFlight.Advance s.lenientKind b s.rx r ∧ t = s.noOutcome r := by
  cases hs : s.rx.rxState with
  | preamble =>
    rw [exec_rxStep_preamble hs] at h
    split_ifs at h <;> cases h
    case pos => exact ⟨_, .sof hs, rfl⟩
    all_goals cases hv
  | length =>
    rw [exec_rxStep_length hs] at h
    split_ifs at h with h1 h2 <;> cases h
    case neg =>
      have h2' : b.toNat ≠ 2 := fun hn => h2 (BitVec.eq_of_toNat_eq hn)
      exact ⟨_, .length hs (by rw [Config.lenMin]; omega), rfl⟩
    all_goals cases hv
  | packetType =>
    rw [exec_rxStep_packetType hs] at h
    split_ifs at h with h1 h2 <;> cases h
    · subst h1; exact ⟨_, .packetType hs (by decide), rfl⟩
    · subst h2; exact ⟨_, .packetType hs (by decide), rfl⟩
    · cases hv
  | messageType =>
    rw [exec_rxStep_kind hs] at h
    split_ifs at h with hb <;> cases h
    · exact ⟨_, .messageType hs hb, rfl⟩
    · cases hv
  | body =>
    rw [exec_rxStep_body hs] at h
    obtain ⟨hc, ht⟩ := exec_rxBody_next h
    exact ⟨_, .body hs hc, ht⟩
  | checksum =>
    rw [exec_rxStep_checksum hs] at h
    rw [exec_rxCsum_valid h] at hv
    cases hv

/-- The RX operation of an edge without reset (R89): RX.STEP of the byte, or RX.IDLE. -/
def Edge.rxInstr (e : Edge) : Instr :=
  if e.iRxValid then .rxStep e.iTxReq e.iRxByte else .rxIdle e.iTxReq

/-- The TX operation of an edge without reset (R89): TX.FRAME of the descriptor, or TX.IDLE. -/
def Edge.txInstr (e : Edge) : Instr :=
  if e.iTxReq then .txFrame e.iRxValid e.iTx else .txIdle e.iRxValid

theorem Edge.rxInstr_byte {e : Edge} (h : e.iRxValid = true) :
    e.rxInstr = .rxStep e.iTxReq e.iRxByte := if_pos h

theorem Edge.rxInstr_idle {e : Edge} (h : e.iRxValid = false) : e.rxInstr = .rxIdle e.iTxReq := by
  simp [Edge.rxInstr, h]

/-- INVERSION of the TX operation of an edge: it writes the TX outputs alone, and leaves them quiet, or
reports InvalidFrame, or sends a frame that the strap accepts (R183, R202). -/
theorem exec_txInstr_cases {e : Edge} {s t : State} (h : exec e.txInstr s = .next t) :
    ∃ o, t = { s with tx := o } ∧
      ((e.iTxReq = false ∧ o = s.tx.quiet) ∨
       (e.iTxReq = true ∧ o = s.tx.rejectFrame) ∨
       (e.iTxReq = true ∧ ∃ f, acceptedFrame s.lenientKind e.iTx = some f ∧
          o = s.tx.sendFrame (serialize f))) := by
  cases hreq : e.iTxReq with
  | false =>
    simp only [Edge.txInstr, hreq] at h
    cases h
    exact ⟨_, rfl, .inl ⟨rfl, rfl⟩⟩
  | true =>
    simp only [Edge.txInstr, hreq, if_true] at h
    rcases exec_txFrame_cases e.iRxValid e.iTx s with ⟨f, hf, hexec⟩ | ⟨-, hexec⟩ <;>
      rw [hexec] at h <;> cases h
    · exact ⟨_, rfl, .inr (.inr ⟨rfl, f, hf, rfl⟩)⟩
    · exact ⟨_, rfl, .inr (.inl ⟨rfl, rfl⟩)⟩

/-- INVERSION of a run of operations: it completes where its first operation and then the rest do. -/
theorem runInstrs_cons_eq_next {run : Instr → State → Result} {i : Instr} {rest : List Instr}
    {s t : State} :
    runInstrs run (i :: rest) s = .next t ↔
      ∃ u, run i s = .next u ∧ runInstrs run rest u = .next t := by
  cases h : run i s with
  | next u => simp [runInstrs_cons_next h]
  | fault r => simp [runInstrs_cons_fault h]
  | refused r => simp [runInstrs_cons_refused h]

/-- INVERSION of a step: RESET alone under the edge's strap, or, with the strap held, the edge's RX
operation and then its TX operation (R89, R204, R261). -/
theorem step_cases {s t : State} (h : step s = .next t) :
    (s.nextEdge.rst = true ∧
      t = { State.reset with lenientKind := s.nextEdge.lenientKind, script := s.script.tail }) ∨
    (s.nextEdge.rst = false ∧ ∃ u, exec s.nextEdge.rxInstr s.dropEdge = .next u ∧
      exec s.nextEdge.txInstr u = .next t) := by
  cases hrst : s.nextEdge.rst with
  | true =>
    rw [step_reset s hrst] at h
    cases h
    exact .inl ⟨rfl, rfl⟩
  | false =>
    by_cases hl : s.nextEdge.lenientKind = s.lenientKind
    · rw [step_run s hrst hl] at h
      refine .inr ⟨rfl, ?_⟩
      change runInstrs exec [s.nextEdge.rxInstr, s.nextEdge.txInstr] s.dropEdge = .next t at h
      obtain ⟨u, hu, hrest⟩ := runInstrs_cons_eq_next.1 h
      obtain ⟨v, hv, hnil⟩ := runInstrs_cons_eq_next.1 hrest
      cases hnil
      exact ⟨u, hu, hv⟩
    · rw [step_strapChanged s hrst hl] at h
      cases h

end Sys2Proof.Machine
end

section
/-! `FrameValid` (R31) clause by clause, and the length of the frames that TX.FRAME sends (R182, R183). -/

namespace Sys2Proof.Machine

/-- SOF starts no control frame (R81). -/
theorem sof_notMem_controlPreambles : Config.sof ∉ Config.controlPreambles := by decide

/-- A control frame is valid exactly when it holds nothing else (R31). -/
theorem frameValid_control {f : Frame} (lenient : Bool) (hp : f.pre ∈ Config.controlPreambles) :
    frameValid lenient f = true ↔
      f.len = none ∧ f.type = none ∧ f.kind = none ∧ f.body = [] ∧ f.csum = none := by
  rw [frameValid, if_pos hp]
  simp [and_assoc]

/-- A SOF frame is valid exactly when its length, type and kind are present and agree with R31. -/
theorem frameValid_sof {f : Frame} (lenient : Bool) (hp : f.pre = Config.sof) :
    frameValid lenient f = true ↔
      ∃ len type kind, f.len = some len ∧ f.type = some type ∧ f.kind = some kind ∧
        len.toNat = 3 + f.body.length ∧ type ∈ Config.knownTypes ∧
        (kind ∈ Config.knownKinds ∨ lenient = true) ∧
        (f.csum = none ∨ f.csum = some (checksum len type kind f.body)) := by
  rw [frameValid, if_neg (by rw [hp]; exact sof_notMem_controlPreambles), if_pos hp]
  obtain ⟨pre, len, type, kind, body, csum⟩ := f
  cases len <;> cases type <;> cases kind <;> cases csum <;> simp [and_assoc]

/-- A frame with any other preamble is invalid (R31). -/
theorem frameValid_otherPreamble {f : Frame} (lenient : Bool)
    (hctrl : f.pre ∉ Config.controlPreambles) (hsof : f.pre ≠ Config.sof) :
    frameValid lenient f = false := by
  rw [frameValid, if_neg hctrl, if_neg hsof]

/-- `FrameValid` as its two kinds of frame (R31). -/
theorem frameValid_iff (lenient : Bool) (f : Frame) :
    frameValid lenient f = true ↔
      (f.pre ∈ Config.controlPreambles ∧ f.len = none ∧ f.type = none ∧ f.kind = none ∧
        f.body = [] ∧ f.csum = none) ∨
      (f.pre = Config.sof ∧ ∃ len type kind, f.len = some len ∧ f.type = some type ∧
        f.kind = some kind ∧ len.toNat = 3 + f.body.length ∧ type ∈ Config.knownTypes ∧
        (kind ∈ Config.knownKinds ∨ lenient = true) ∧
        (f.csum = none ∨ f.csum = some (checksum len type kind f.body))) := by
  by_cases hsof : f.pre = Config.sof
  · simp only [frameValid_sof lenient hsof, hsof, sof_notMem_controlPreambles, false_and,
      true_and, false_or]
  · by_cases hctrl : f.pre ∈ Config.controlPreambles
    · simp only [frameValid_control lenient hctrl, hctrl, hsof, true_and, false_and, or_false]
    · simp only [frameValid_otherPreamble lenient hctrl hsof, hctrl, hsof, false_and, or_false,
        Bool.false_eq_true]

/-- Settles O56: the clauses of `frameValid_iff`, with the parameters' values written out. -/
theorem frameValidClauses : Obligations.FrameValidClauses :=
  frameValid_iff

/-- A valid frame fits the TX buffer: its LENGTH is a byte (R38, R61). -/
theorem length_serialize_le_of_frameValid {lenient : Bool} {f : Frame}
    (h : frameValid lenient f = true) : (serialize f).length ≤ Config.frameMax := by
  have hcsum : f.csum.toList.length ≤ 1 := by cases f.csum <;> simp
  rw [Config.frameMax]
  rcases (frameValid_iff lenient f).1 h with
    ⟨-, hlen, htype, hkind, hbody, -⟩ | ⟨-, len, type, kind, hlen, htype, hkind, hcount, -⟩
  · simp only [serialize, hlen, htype, hkind, hbody, List.length_append, List.length_cons,
      List.length_nil, Option.toList_none]
    omega
  · simp only [serialize, hlen, htype, hkind, List.length_append, List.length_cons,
      List.length_nil, Option.toList_some]
    omega

/-- TX.FRAME sends valid frames only (R183). -/
theorem frameValid_of_acceptedFrame {lenient : Bool} {d : TxDescriptor} {f : Frame}
    (h : acceptedFrame lenient d = some f) : frameValid lenient f = true := by
  unfold acceptedFrame at h
  split at h
  · cases h
  · split at h
    · split at h
      · next hvalid => cases h; exact hvalid
      · cases h
    · cases h

end Sys2Proof.Machine
end

section
/-! The invariant along steps and runs (R45), and what it gives the host (R44). -/

namespace Sys2Proof.Machine

/-! ### Right after reset -/

/-- Right after reset the invariant holds, whatever the strap and the script. -/
theorem State.reset_inv (l : Bool) (script : List Edge) :
    ({ State.reset with lenientKind := l, script := script } : State).Inv :=
  (State.inv_iff _).2 ⟨RxInFlight.reset_ok l, RxOutputs.reset_ok, TxOutputs.reset_ok⟩

/-- Settles O2: RESET writes the three groups of registers that `State.reset` is made of. -/
theorem resetStateIsWhatResetLeaves : Obligations.ResetStateIsWhatResetLeaves :=
  ⟨fun _ _ _ => rfl, rfl, rfl, fun _ => ⟨rfl, rfl, rfl⟩⟩

/-- Settles O3: each group of registers meets its part at its reset values. -/
theorem invariantAtReset : Obligations.InvariantAtReset :=
  State.reset_inv Config.lenientDefault []

/-! ### One step -/

/-- RX.STEP keeps the invariant: a move of the in-flight registers, or an outcome with `Clear()`. -/
theorem State.Inv.rxStep {tx : Bool} {b : Byte} {s t : State} (hs : s.Inv)
    (h : exec (.rxStep tx b) s = .next t) : t.Inv := by
  obtain ⟨hrx, hout, htx⟩ := (State.inv_iff s).1 hs
  rcases exec_rxStep_cases h with ⟨r, rfl⟩ | ⟨f, hf, rfl⟩ | ⟨e, p, he, hp, rfl⟩
  · obtain ⟨q, hq, ht⟩ := exec_rxStep_advance h rfl
    rw [ht]
    exact (State.inv_iff _).2 ⟨hrx.advance hq, hout.quiet, htx⟩
  · exact (State.inv_iff _).2
      ⟨RxInFlight.clear_ok _ hrx.wf, hout.report b (by decide) (by decide) hf, htx⟩
  · exact (State.inv_iff _).2
      ⟨RxInFlight.clear_ok _ hrx.wf, hout.report b (by decide) (by simp [he]) hp, htx⟩

/-- The RX operation of an edge keeps the invariant. -/
theorem State.Inv.rxInstr {e : Edge} {s t : State} (hs : s.Inv)
    (h : exec e.rxInstr s = .next t) : t.Inv := by
  cases hv : e.iRxValid with
  | true => rw [Edge.rxInstr_byte hv] at h; exact hs.rxStep h
  | false =>
    rw [Edge.rxInstr_idle hv] at h
    cases h
    obtain ⟨hrx, hout, htx⟩ := (State.inv_iff s).1 hs
    exact (State.inv_iff _).2 ⟨hrx, hout.quiet, htx⟩

/-- The TX operation of an edge keeps the invariant. -/
theorem State.Inv.txInstr {e : Edge} {s t : State} (hs : s.Inv)
    (h : exec e.txInstr s = .next t) : t.Inv := by
  obtain ⟨hrx, hout, htx⟩ := (State.inv_iff s).1 hs
  obtain ⟨o, rfl, ho⟩ := exec_txInstr_cases h
  refine (State.inv_iff _).2 ⟨hrx, hout, ?_⟩
  rcases ho with ⟨-, rfl⟩ | ⟨-, rfl⟩ | ⟨-, f, hf, rfl⟩
  · exact htx.quiet
  · exact htx.rejectFrame
  · exact htx.sendFrame (length_serialize_le_of_frameValid (frameValid_of_acceptedFrame hf))

/-- Taking an edge from the script keeps the invariant. -/
theorem State.Inv.dropEdge {s : State} (hs : s.Inv) : s.dropEdge.Inv :=
  (State.inv_iff _).2 ((State.inv_iff s).1 hs)

/-- Settles O4: RESET establishes the invariant, and the RX and TX operations of an edge each keep
it. -/
theorem invariantKeptByEveryStep : Obligations.InvariantKeptByEveryStep := by
  intro s t hs h
  rcases step_cases h with ⟨-, rfl⟩ | ⟨-, u, hu, ht⟩
  · exact State.reset_inv _ _
  · exact (hs.dropEdge.rxInstr hu).txInstr ht

/-! ### Runs -/

/-- What every step keeps holds after a run of any length. -/
theorem core_run_induction {P : State → Prop} (hstep : ∀ s t, P s → step s = .next t → P t)
    {n : Nat} {s t : State} (hs : P s) (h : Host.Core.run Sys2Proof.core n s = .next t) : P t := by
  induction n generalizing s with
  | zero => cases h; exact hs
  | succ n ih =>
    cases hu : step s with
    | next u => rw [core_run_next hu] at h; exact ih (hstep s u hs hu) h
    | fault r => rw [core_run_fault hu] at h; cases h
    | refused r => rw [core_run_refused hu] at h; cases h

/-- The table of R28 bounds the body count by the size of the body buffer (R45). -/
theorem RxInFlight.FieldsOk.rxCnt_le {r : RxInFlight} (h : r.FieldsOk) :
    r.rxCnt.toNat ≤ Config.bodyMax := by
  have hlen : r.rxLen.toNat < 256 := r.rxLen.isLt
  rw [Config.bodyMax]
  cases hs : r.rxState with
  | preamble => obtain ⟨-, -, -, hcnt⟩ := h.preamble hs; simp [hcnt]
  | length => obtain ⟨-, -, -, hcnt, -⟩ := h.length hs; simp [hcnt]
  | packetType => obtain ⟨-, -, -, hcnt⟩ := h.packetType hs; simp [hcnt]
  | messageType => obtain ⟨-, -, -, hcnt⟩ := h.messageType hs; simp [hcnt]
  | body => obtain ⟨-, -, hcnt⟩ := h.body hs; omega
  | checksum => obtain ⟨-, -, hcnt⟩ := h.checksum hs; omega

/-- No FSM state has a reserved code (R92, R93). -/
theorem RxState.code_ne_reserved (st : RxState) : st.code ≠ 6 ∧ st.code ≠ 7 := by
  cases st <;> decide

/-- Settles O5: the invariant along the run, and the bounds that its table of R28 implies. -/
theorem reachableStatesHaveInvariant : Obligations.ReachableStatesHaveInvariant := by
  intro lenient script n t h
  have ht : t.Inv := core_run_induction invariantKeptByEveryStep (State.reset_inv lenient script) h
  refine ⟨ht, ht.fields.rxCnt_le, fun hs => ?_, fun hs => ?_, RxState.code_ne_reserved _⟩
  · obtain ⟨-, -, hcnt⟩ := ht.fields.body hs
    omega
  · obtain ⟨-, -, hcnt⟩ := ht.fields.checksum hs
    omega

/-! ### The host's reads -/

/-- Where `n` elements can be read together, each of them can. -/
theorem Memory.exists_read_of_readFrom {m : Memory} {n i : Nat}
    (h : (m.readFrom 0 n).isSome = true) (hi : i < n) : ∃ b, m.read i = some b := by
  obtain ⟨bytes, hbytes⟩ := Option.isSome_iff_exists.1 h
  obtain ⟨hlen, hread⟩ := (Memory.readFrom_eq_some m 0 n bytes).1 hbytes
  have := hread i hi
  rw [Nat.zero_add, List.getElem?_eq_getElem (by omega)] at this
  exact ⟨_, this⟩

/-- A read of a written element of `o_rx_body` below the count gives its byte (R44). -/
theorem State.readRxBody_ok {s : State} {i : Nat} {b : Byte} (hi : i < s.rxOut.oRxCnt.toNat)
    (hb : Memory.read s.rxOut.oRxBody i = some b) : s.readRxBody i = .ok b := by
  rw [State.readRxBody, if_pos hi, hb]

/-- A read of a written element of `o_tx_buf` below the count gives its byte (R44). -/
theorem State.readTxBuf_ok {s : State} {i : Nat} {b : Byte} (hi : i < s.tx.oTxLen.toNat)
    (hb : Memory.read s.tx.oTxBuf i = some b) : s.readTxBuf i = .ok b := by
  rw [State.readTxBuf, if_pos hi, hb]

/-- Settles O60: below a count, the invariant has every element of the buffer written. -/
theorem hostReadsOnlyMeaningfulBytes : Obligations.HostReadsOnlyMeaningfulBytes := by
  intro s i
  refine ⟨fun hi => if_neg (by omega), fun hi => if_neg (by omega), fun hs hi => ?_,
    fun hs hi => ?_⟩
  · obtain ⟨b, hb⟩ := Memory.exists_read_of_readFrom hs.rxOut.written hi
    exact ⟨b, State.readRxBody_ok hi hb, hb⟩
  · obtain ⟨b, hb⟩ := Memory.exists_read_of_readFrom hs.tx.written hi
    exact ⟨b, State.readTxBuf_ok hi hb, hb⟩

end Sys2Proof.Machine
end

section
/-! The pulses after a step (R34, R40), and the accumulator that RX rules and CSU operations share
(R27, R94). -/

namespace Sys2Proof.Machine

/-! ### The two pulses -/

/-- The TX operation of an edge writes the TX outputs alone, with the pulse as the request (R40). -/
theorem exec_txInstr_pulse {e : Edge} {s t : State} (h : exec e.txInstr s = .next t) :
    t.rx = s.rx ∧ t.rxOut = s.rxOut ∧ t.tx.oTxValid = e.iTxReq := by
  obtain ⟨o, rfl, ho⟩ := exec_txInstr_cases h
  rcases ho with ⟨hreq, rfl⟩ | ⟨hreq, rfl⟩ | ⟨hreq, f, -, rfl⟩ <;> exact ⟨rfl, rfl, hreq.symm⟩

/-- RX.STEP raises the pulse exactly with an outcome; without one the other RX outputs hold (R34,
R140, R141). -/
theorem exec_rxStep_pulse {tx : Bool} {b : Byte} {s t : State}
    (h : exec (.rxStep tx b) s = .next t) :
    (t.rxOut.oRxValid = false ∧ s.RxQuiet t) ∨
    (t.rxOut.oRxValid = true ∧ t.rxOut.oRxRes ≠ .none ∧ t.rxOut.oRxByte = b ∧ s.RxCleared t) := by
  rcases exec_rxStep_cases h with ⟨r, rfl⟩ | ⟨f, hf, rfl⟩ | ⟨e, p, -, hp, rfl⟩
  · exact .inl ⟨rfl, rfl⟩
  · have hd := s.delivers_emitPacket b f hf
    exact .inr ⟨hd.valid, by simp, hd.byte, hd.cleared⟩
  · have hr := s.raises_raiseError e b p hp
    exact .inr ⟨hr.valid, by simp, hr.byte, hr.cleared⟩

/-- Settles O19: RESET clears both pulses; on any other edge the RX operation decides one and the TX
operation the other. -/
theorem pulsesFollowTheEdge : Obligations.PulsesFollowTheEdge := by
  intro s t h
  rcases step_cases h with ⟨hrst, rfl⟩ | ⟨hrst, u, hu, ht⟩
  · simp [hrst, State.reset, RxOutputs.reset, TxOutputs.reset]
  · obtain ⟨hrx, hout, hpulse⟩ := exec_txInstr_pulse ht
    refine ⟨by simp [hpulse, hrst], fun hr => by simp [hrst] at hr, fun _ hv => ?_, fun _ hv => ?_⟩
    · rw [Edge.rxInstr_idle hv] at hu
      cases hu
      exact hout
    · rw [Edge.rxInstr_byte hv] at hu
      rw [hout, State.RxCleared, hrx]
      rcases exec_rxStep_pulse hu with ⟨hval, hquiet⟩ | ⟨hval, hres, hbyte, hcleared⟩
      · exact ⟨fun _ => hquiet, fun hv => by simp [hval] at hv⟩
      · exact ⟨fun hv => by simp [hval] at hv, fun _ => ⟨hres, hbyte, hcleared⟩⟩

/-! ### The accumulator -/

/-- CSU.ABSORB of a byte (R123). -/
theorem exec_csuAbsorb_rxAcc {b : Byte} {s u : State} (h : exec (.csuAbsorb b) s = .next u) :
    u.rx.rxAcc = s.rx.rxAcc ^^^ b := by
  cases h; rfl

/-- RX.LEN.OK absorbs its byte (R146). -/
theorem exec_rxLenOk_rxAcc {l : Bool} {b : Byte} {s t : State}
    (h : exec (.rxLenOk l b) s = .next t) : t.rx.rxAcc = s.rx.rxAcc ^^^ b := by
  cases h; rfl

/-- RX.TYPE.OK absorbs its byte (R147). -/
theorem rxTypeOk_rxAcc {b : Byte} {s t : State} (h : rxTypeOk b s = .next t) :
    t.rx.rxAcc = s.rx.rxAcc ^^^ b := by
  cases h; rfl

/-- RX.KIND.OK absorbs its byte (R149). -/
theorem rxKindOk_rxAcc {b : Byte} {s t : State} (h : rxKindOk b s = .next t) :
    t.rx.rxAcc = s.rx.rxAcc ^^^ b := by
  cases h; rfl

/-- RX.BODY absorbs its byte (R152). -/
theorem exec_rxBody_rxAcc {l : Bool} {b : Byte} {s t : State}
    (h : exec (.rxBody l b) s = .next t) : t.rx.rxAcc = s.rx.rxAcc ^^^ b := by
  obtain ⟨-, rfl⟩ := exec_rxBody_next h
  rfl

/-- Settles O27: SOF and CSU.INIT both leave the seed, and each other rule absorbs its byte as
CSU.ABSORB does. -/
theorem rxRulesDriveTheCsu : Obligations.RxRulesDriveTheCsu := by
  intro l b s t u
  refine ⟨fun ht hu => ?_, fun hu i hi ht => ?_, fun hu ht => ?_, fun hu ht => ?_⟩
  · cases ht; cases hu; rfl
  · rw [exec_csuAbsorb_rxAcc hu]
    simp only [List.mem_cons, List.not_mem_nil, or_false] at hi
    rcases hi with rfl | rfl | rfl
    · exact exec_rxLenOk_rxAcc ht
    · exact rxKindOk_rxAcc ht
    · exact exec_rxBody_rxAcc ht
  · rw [exec_csuAbsorb_rxAcc hu]; exact rxTypeOk_rxAcc ht
  · rw [exec_csuAbsorb_rxAcc hu]; exact rxKindOk_rxAcc ht

end Sys2Proof.Machine
end

section
/-! The in-flight body as the rules read it, and where the two buffer rules stop (R26, R44, R61). -/

namespace Sys2Proof.Machine

/-- A count above the size of the body buffer is a fault (R61). -/
theorem State.withBody_outOfRange {s : State} (h : Config.bodyMax < s.rx.rxCnt.toNat)
    (k : List Byte → Result) : s.withBody k = .fault .bodyIndexOutOfRange :=
  if_pos h

/-- A body with an unwritten byte is refused (R44). -/
theorem State.withBody_unwritten {s : State} (h : s.rx.rxCnt.toNat ≤ Config.bodyMax)
    (hb : Memory.readFrom s.rx.rxBody 0 s.rx.rxCnt.toNat = none) (k : List Byte → Result) :
    s.withBody k = .refused .unwrittenByte := by
  rw [State.withBody, if_neg (by omega), hb]

/-- A body that is written below the count is handed on (R26). -/
theorem State.withBody_written {s : State} {body : List Byte}
    (h : s.rx.rxCnt.toNat ≤ Config.bodyMax)
    (hb : Memory.readFrom s.rx.rxBody 0 s.rx.rxCnt.toNat = some body) (k : List Byte → Result) :
    s.withBody k = k body := by
  rw [State.withBody, if_neg (by omega), hb]

/-- Where one of `n` elements is unwritten, they cannot be read together (R44). -/
theorem Memory.readFrom_eq_none {m : Memory} {n i : Nat} (hi : i < n) (h : m.read i = none) :
    m.readFrom 0 n = none := by
  cases hm : m.readFrom 0 n with
  | none => rfl
  | some bytes =>
    obtain ⟨b, hb⟩ := Memory.exists_read_of_readFrom (Option.isSome_of_eq_some hm) hi
    rw [h] at hb
    cases hb

/-- Settles O39: the count decides between the fault and the read of the body, and one unwritten byte
leaves no body. -/
theorem bufferRulesStopOutsideBuffer : Obligations.BufferRulesStopOutsideBuffer := by
  intro l b s
  refine ⟨fun h => if_neg (Nat.not_lt.2 h), fun h => State.withBody_outOfRange h _, fun h hu => ?_⟩
  obtain ⟨i, hi, hread⟩ := hu
  exact State.withBody_unwritten h (Memory.readFrom_eq_none hi hread) _

end Sys2Proof.Machine
end

section
/-! RX operations do not see what lies outside RXD, and TX operations write nothing else (R70); from
this, a run of byte edges as a fold of RX.STEP (R69). -/

namespace Sys2Proof.Machine

/-! ### Updates outside RXD -/

/-- Apply `f` to the state that a meaning answers; a stop stays as it is. -/
def mapNext (f : State → State) (r : Result) : Result :=
  match r with
  | .next t => .next (f t)
  | .fault q => .fault q
  | .refused q => .refused q

/-- Update the two parts of the state that no RX operation owns: TXS's registers by `g`, the host's
script by `c`. -/
def State.mapOutsideRx (g : TxOutputs → TxOutputs) (c : List Edge → List Edge) (s : State) : State :=
  { s with tx := g s.tx, script := c s.script }

/-- A rule over the body commutes with an update outside RXD where its continuation does. -/
theorem State.withBody_mapOutsideRx (g : TxOutputs → TxOutputs) (c : List Edge → List Edge)
    (s : State) {k k' : List Byte → Result}
    (hk : ∀ body, k' body = mapNext (State.mapOutsideRx g c) (k body)) :
    (s.mapOutsideRx g c).withBody k' = mapNext (State.mapOutsideRx g c) (s.withBody k) := by
  by_cases h : s.rx.rxCnt.toNat ≤ Config.bodyMax
  · cases hb : Memory.readFrom s.rx.rxBody 0 s.rx.rxCnt.toNat with
    | none =>
      rw [State.withBody_unwritten h hb, State.withBody_unwritten (by exact h) (by exact hb)]
      rfl
    | some body =>
      rw [State.withBody_written h hb, State.withBody_written (by exact h) (by exact hb), hk]
  · rw [Nat.not_le] at h
    rw [State.withBody_outOfRange h, State.withBody_outOfRange (by exact h)]
    rfl

/-! ### RX operations -/

/-- Every RXSTEP row commutes with an update outside RXD: what its rule tests and stores is RXD's own. -/
theorem runRxRow_mapOutsideRx (g : TxOutputs → TxOutputs) (c : List Edge → List Edge) (i : Instr)
    (s : State) :
    runRxRow i (s.mapOutsideRx g c) = mapNext (State.mapOutsideRx g c) (runRxRow i s) := by
  cases i
  case rxBody l b =>
    show execRxBody b (s.mapOutsideRx g c) = mapNext _ (execRxBody b s)
    unfold execRxBody
    rw [apply_ite (mapNext _)]
    rfl
  case rxCsum l b =>
    refine State.withBody_mapOutsideRx g c s fun body => ?_
    rw [apply_ite (mapNext _)]
    rfl
  all_goals rfl

/-- RX.STEP commutes with an update outside RXD (R70). -/
theorem exec_rxStep_mapOutsideRx (g : TxOutputs → TxOutputs) (c : List Edge → List Edge) (tx : Bool)
    (b : Byte) (s : State) :
    exec (.rxStep tx b) (s.mapOutsideRx g c) =
      mapNext (State.mapOutsideRx g c) (exec (.rxStep tx b) s) := by
  have hword : (s.mapOutsideRx g c).rxWord b = s.rxWord b := rfl
  simp only [exec, execRxStep, hword]
  cases decodeRxStep (s.rxWord b) with
  | some i => exact runRxRow_mapOutsideRx g c i s
  | none => rfl

/-- An RX operation commutes with an update outside RXD (R70). -/
theorem exec_rx_mapOutsideRx {i : Instr} (hi : ∃ tx b, i = .rxStep tx b ∨ i = .rxIdle tx)
    (g : TxOutputs → TxOutputs) (c : List Edge → List Edge) (s : State) :
    exec i (s.mapOutsideRx g c) = mapNext (State.mapOutsideRx g c) (exec i s) := by
  obtain ⟨tx, b, rfl | rfl⟩ := hi
  · exact exec_rxStep_mapOutsideRx g c tx b s
  · rfl

/-- An RX operation keeps the strap (R41). -/
theorem exec_rx_lenientKind {i : Instr} (hi : ∃ tx b, i = .rxStep tx b ∨ i = .rxIdle tx)
    {s t : State} (h : exec i s = .next t) : t.lenientKind = s.lenientKind := by
  obtain ⟨tx, b, rfl | rfl⟩ := hi
  · obtain ⟨-, hl, -⟩ := exec_rxStep_outside h
    exact hl
  · cases h; rfl

/-! ### TX operations -/

/-- A TX operation completes, and is an update of TXS's registers that the strap alone decides (R183,
R202). -/
theorem exec_tx_eq_mapOutsideRx {j : Instr} (hj : ∃ rx d, j = .txFrame rx d ∨ j = .txIdle rx)
    (l : Bool) : ∃ g : TxOutputs → TxOutputs, ∀ s : State, s.lenientKind = l →
      exec j s = .next (s.mapOutsideRx g id) := by
  obtain ⟨rx, d, rfl | rfl⟩ := hj
  · cases hf : acceptedFrame l d with
    | some f =>
      refine ⟨fun o => o.sendFrame (serialize f), fun s hs => ?_⟩
      subst hs
      simp only [exec, execTxFrame, hf]
      rfl
    | none =>
      refine ⟨TxOutputs.rejectFrame, fun s hs => ?_⟩
      subst hs
      simp only [exec, execTxFrame, hf]
      rfl
  · exact ⟨TxOutputs.quiet, fun s _ => rfl⟩

/-- An RX and a TX operation commute (R70). -/
theorem runInstrs_rx_tx_comm {i j : Instr} (hi : ∃ tx b, i = .rxStep tx b ∨ i = .rxIdle tx)
    (hj : ∃ rx d, j = .txFrame rx d ∨ j = .txIdle rx) (s : State) :
    runInstrs exec [i, j] s = runInstrs exec [j, i] s := by
  obtain ⟨g, hg⟩ := exec_tx_eq_mapOutsideRx hj s.lenientKind
  have hji := exec_rx_mapOutsideRx hi g id s
  rw [runInstrs_cons_next (hg s rfl)]
  cases h : exec i s with
  | next t =>
    rw [h] at hji
    rw [runInstrs_cons_next h, runInstrs_cons_next (hg t (exec_rx_lenientKind hi h)),
      runInstrs_cons_next hji]
  | fault r => rw [h] at hji; rw [runInstrs_cons_fault h, runInstrs_cons_fault hji]
  | refused r => rw [h] at hji; rw [runInstrs_cons_refused h, runInstrs_cons_refused hji]

/-- Settles O17: an RX operation commutes with every update outside RXD, and a TX operation is one. -/
theorem rxAndTxCommute : Obligations.RxAndTxCommute := by
  intro i j hi hj s
  refine ⟨runInstrs_rx_tx_comm hi hj s, fun x => exec_rx_mapOutsideRx hi (fun _ => x) id s,
    fun r o => ?_⟩
  obtain ⟨g, hg⟩ := exec_tx_eq_mapOutsideRx hj s.lenientKind
  rw [hg s rfl]
  exact hg _ rfl

/-! ### Runs of byte edges -/

/-- Feeding bytes commutes with an update outside RXD (R69, R70). -/
theorem feed_mapOutsideRx (g : TxOutputs → TxOutputs) (c : List Edge → List Edge)
    (bytes : List Byte) (s : State) :
    feed bytes (s.mapOutsideRx g c) = mapNext (State.mapOutsideRx g c) (feed bytes s) := by
  induction bytes generalizing s with
  | nil => rfl
  | cons b bs ih =>
    simp only [feed, List.map_cons, runInstrs, exec_rxStep_mapOutsideRx]
    cases exec (.rxStep false b) s with
    | next t => exact ih t
    | fault r => rfl
    | refused r => rfl

/-- The step on a byte edge is RX.STEP, with the edge gone from the script and TXS quiet. -/
theorem step_rxEdge {s : State} {b : Byte} {rest : List Edge}
    (h : s.script = rxEdge s.lenientKind b :: rest) :
    step s = exec (.rxStep false b) (s.mapOutsideRx TxOutputs.quiet List.tail) := by
  have hedge : s.nextEdge = rxEdge s.lenientKind b := by simp [State.nextEdge, h]
  calc step s
      = runInstrs exec [.rxStep false b, .txIdle true] s.dropEdge := by
        rw [step_run s (by rw [hedge]; rfl) (by rw [hedge]; rfl), hedge]
        rfl
    _ = runInstrs exec [.txIdle true, .rxStep false b] s.dropEdge :=
        runInstrs_rx_tx_comm ⟨_, _, .inl rfl⟩ ⟨_, TxDescriptor.zero, .inr rfl⟩ _
    _ = runInstrs exec [.rxStep false b] (s.mapOutsideRx TxOutputs.quiet List.tail) := rfl
    _ = exec (.rxStep false b) (s.mapOutsideRx TxOutputs.quiet List.tail) := by
        rw [runInstrs]
        cases exec (.rxStep false b) (s.mapOutsideRx TxOutputs.quiet List.tail) <;> rfl

/-- Two states with the same next step have the same runs of one step and more. -/
theorem core_run_succ_congr {s t : State} (n : Nat) (h : step s = step t) :
    Host.Core.run Sys2Proof.core (n + 1) s = Host.Core.run Sys2Proof.core (n + 1) t := by
  cases ht : step t with
  | next u => rw [core_run_next (h.trans ht), core_run_next ht]
  | fault r => rw [core_run_fault (h.trans ht), core_run_fault ht]
  | refused r => rw [core_run_refused (h.trans ht), core_run_refused ht]

/-- From a state with TXS quiet, a run over byte edges feeds the bytes. -/
theorem core_run_rxEdges_of_quiet {bytes : List Byte} {rest : List Edge} {s : State}
    (h : s.script = bytes.map (rxEdge s.lenientKind) ++ rest) :
    Host.Core.run Sys2Proof.core bytes.length (s.mapOutsideRx TxOutputs.quiet id) =
      feed bytes (s.mapOutsideRx TxOutputs.quiet fun _ => rest) := by
  induction bytes generalizing s with
  | nil => subst h; rfl
  | cons b bs ih =>
    have hstep : step (s.mapOutsideRx TxOutputs.quiet id) =
        mapNext (State.mapOutsideRx TxOutputs.quiet List.tail) (exec (.rxStep false b) s) :=
      (step_rxEdge (s := s.mapOutsideRx TxOutputs.quiet id) h).trans
        (exec_rxStep_mapOutsideRx TxOutputs.quiet List.tail false b s)
    have hfeed := exec_rxStep_mapOutsideRx TxOutputs.quiet (fun _ => rest) false b s
    simp only [feed, List.map_cons, List.length_cons]
    cases hr : exec (.rxStep false b) s with
    | next t =>
      rw [hr] at hstep hfeed
      obtain ⟨-, hl, hs⟩ := exec_rxStep_outside hr
      rw [core_run_next hstep, runInstrs_cons_next hfeed]
      refine ih (s := t.mapOutsideRx id List.tail) ?_
      show t.script.tail = bs.map (rxEdge t.lenientKind) ++ rest
      rw [hs, hl, h]
      rfl
    | fault r =>
      rw [hr] at hstep hfeed
      exact (core_run_fault hstep).trans (runInstrs_cons_fault hfeed _).symm
    | refused r =>
      rw [hr] at hstep hfeed
      exact (core_run_refused hstep).trans (runInstrs_cons_refused hfeed _).symm

/-- Settles O20: the first byte edge leaves TXS quiet, so the run is one from a quiet state, and the
quiet TXS moves out of the fold. -/
theorem runOfBytesIsFold : Obligations.RunOfBytesIsFold := by
  intro s bytes rest hne h
  obtain ⟨b, bs, rfl⟩ := List.exists_cons_of_ne_nil hne
  have hstep : step s = step (s.mapOutsideRx TxOutputs.quiet id) :=
    (step_rxEdge h).trans (step_rxEdge (s := s.mapOutsideRx TxOutputs.quiet id) h).symm
  have hfold := feed_mapOutsideRx TxOutputs.quiet id (b :: bs) { s with script := rest }
  exact (core_run_succ_congr bs.length hstep).trans ((core_run_rxEdges_of_quiet h).trans hfold)

end Sys2Proof.Machine
end

section
/-! THE DECODE TABLES as inverses of the encoder: the layout of the words (R89, R90), the row that wins for
each RXSTEP word (R91), and the round trips between words and well-formed instructions (R99). -/

namespace Sys2Proof

/-! ### The layout of the words -/

/-- Two words side by side hold the value of the left one above the bits of the right one. -/
theorem toNat_append_eq_mul_add {m n : Nat} (x : BitVec m) (y : BitVec n) :
    (x ++ y).toNat = x.toNat * 2 ^ n + y.toNat := by
  rw [BitVec.toNat_append, ← Nat.shiftLeft_add_eq_or_of_lt y.isLt, Nat.shiftLeft_eq]

/-- A strobe of weight `k` adds `k` where it is high. -/
theorem toNat_ofBool_mul (v : Bool) (k : Nat) :
    (BitVec.ofBool v).toNat * k = if v then k else 0 := by
  cases v <;> simp

/-- The value of the RXSTEP word (R90). -/
theorem rxStepWord_toNat (l : Bool) (c : BitVec 3) (b : Byte) :
    (rxStepWord l c b).toNat = (if l then 2048 else 0) + c.toNat * 256 + b.toNat := by
  rw [← toNat_ofBool_mul, rxStepWord, toNat_append_eq_mul_add, toNat_append_eq_mul_add]
  omega

/-- The value of the port word (R89). -/
theorem portWord_toNat (rst rx tx : Bool) :
    (portWord rst rx tx).toNat =
      (if rst then 4 else 0) + (if rx then 2 else 0) + (if tx then 1 else 0) := by
  rw [← toNat_ofBool_mul, ← toNat_ofBool_mul, ← toNat_ofBool_mul, portWord,
    toNat_append_eq_mul_add, toNat_append_eq_mul_add]
  omega

/-! ### The decode tables -/

/-- The 3-bit state codes: six FSM states and two reserved ones (R92, R93). -/
theorem stateCode_cases (c : BitVec 3) :
    c = 0 ∨ c = 1 ∨ c = 2 ∨ c = 3 ∨ c = 4 ∨ c = 5 ∨ c = 6 ∨ c = 7 := by
  revert c; decide

/-- The bytes of RX.LEN.BAD.A (R91, row 6). -/
theorem byte_lt_two_iff (b : Byte) : b.toNat < 2 ↔ b = 0x00 ∨ b = 0x01 := by
  bv_omega

/-- Settles O9: the word's value is that of its three fields, and the rows of each state code are tried
on the byte. -/
theorem rxStepTableByStateAndByte : Obligations.RxStepTableByStateAndByte := by
  intro l c b
  refine ⟨rxStepWord_toNat l c b, ?_⟩
  rcases stateCode_cases c with rfl | rfl | rfl | rfl | rfl | rfl | rfl | rfl
  · exact decodeRxStep_preamble l b
  · simp only [← byte_lt_two_iff]
    exact decodeRxStep_length l b
  · exact decodeRxStep_packetType l b
  · exact decodeRxStep_messageType l b
  · exact decodeRxStep_body l b
  · exact decodeRxStep_checksum l b
  · exact decodeRxStep_rsv6 l b
  · exact decodeRxStep_rsv7 l b

/-- Settles O10: the strobes' weights, and each side's decode of the port word. -/
theorem portWordBySide : Obligations.PortWordBySide := fun rst rx tx b d =>
  ⟨portWord_toNat rst rx tx, decodePort_rx rst rx tx b d, decodePort_tx rst rx tx b d⟩

/-- What a CSU word decodes to (R94). -/
theorem decodeCsu_strobes (init absorb : Bool) (byte : Byte) :
    decodeCsu (BitVec.ofBool init ++ BitVec.ofBool absorb) byte =
      if init = true then .csuInit absorb else if absorb = true then .csuAbsorb byte
      else .csuHold := by
  cases init <;> cases absorb <;> rfl

/-- Settles O11: one decode for each of the four pairs of strobes. -/
theorem csuWordDecodes : Obligations.CsuWordDecodes :=
  decodeCsu_strobes

/-- Settles O12: each word is decoded by evaluation. -/
theorem sampleWordsDecode : Obligations.SampleWordsDecode :=
  ⟨rfl, rfl, rfl, rfl, rfl, rfl, rfl, rfl, rfl, rfl, rfl⟩

/-! ### The rows that leave the byte free -/

/-- Row 5: every other byte in PREAMBLE. -/
theorem decodeRxStep_rxPreBad (l : Bool) {b : Byte} (hb : b ∉ Config.preambles) :
    decodeRxStep (rxStepWord l 0 b) = some (.rxPreBad l b) := by
  simp only [Config.preambles, List.mem_cons, List.not_mem_nil, or_false, not_or] at hb
  obtain ⟨hsof, hack, hnak, hcan⟩ := hb
  rw [decodeRxStep_preamble, if_neg hsof, if_neg hack, if_neg hnak, if_neg hcan]

/-- Row 6: a length of 0 or 1. -/
theorem decodeRxStep_rxLenBadA (l : Bool) {b : Byte} (hb : b.toNat < 2) :
    decodeRxStep (rxStepWord l 1 b) = some (.rxLenBadA l b) := by
  rw [decodeRxStep_length, if_pos hb]

/-- Row 8: a length that counts type, kind and checksum. -/
theorem decodeRxStep_rxLenOk (l : Bool) {b : Byte} (hb : Config.lenMin ≤ b.toNat) :
    decodeRxStep (rxStepWord l 1 b) = some (.rxLenOk l b) := by
  rw [Config.lenMin] at hb
  have hne : b ≠ 0x02 := by rintro rfl; exact absurd hb (by decide)
  rw [decodeRxStep_length, if_neg (by omega), if_neg hne]

/-- Row 11: every other byte in PACKET_TYPE. -/
theorem decodeRxStep_rxTypeBad (l : Bool) {b : Byte} (hb : b ∉ Config.knownTypes) :
    decodeRxStep (rxStepWord l 2 b) = some (.rxTypeBad l b) := by
  simp only [Config.knownTypes, List.mem_cons, List.not_mem_nil, or_false, not_or] at hb
  obtain ⟨hreq, hrsp⟩ := hb
  rw [decodeRxStep_packetType, if_neg hreq, if_neg hrsp]

/-- Rows 19 and 20: every other byte in MESSAGE_TYPE, by the policy bit. -/
theorem decodeRxStep_rxKindUnk (l : Bool) {b : Byte} (hb : b ∉ Config.knownKinds) :
    decodeRxStep (rxStepWord l 3 b) =
      some (if l then .rxKindUnkLenient b else .rxKindUnkStrict b) := by
  simp only [Config.knownKinds, List.mem_cons, List.not_mem_nil, or_false, not_or] at hb
  obtain ⟨h00, h02, h04, h05, h07, h13, h49⟩ := hb
  rw [decodeRxStep_messageType, if_neg h00, if_neg h02, if_neg h04, if_neg h05, if_neg h07,
    if_neg h13, if_neg h49]

/-! ### Round trips -/

/-- Settles O7: a constructor that fixes its byte is the row of that byte; one that leaves it free is its
state's last row for it, because well-formedness keeps the byte from the rows above. -/
theorem encodeThenDecode : Obligations.EncodeThenDecode := by
  intro i hw
  cases i
  case reset rx tx => exact decodePort_rx true rx tx _ _
  case rxStep tx b => exact decodePort_rx false true tx b _
  case rxIdle tx => exact decodePort_rx false false tx _ _
  case txFrame rx d => exact decodePort_tx false rx true _ d
  case txIdle rx => exact decodePort_tx false rx false _ _
  case rxPreSof l | rxPreAck l | rxPreNak l | rxPreCan l => exact decodeRxStep_preamble l _
  case rxPreBad l b => exact decodeRxStep_rxPreBad l (of_decide_eq_true hw)
  case rxLenBadA l b => exact decodeRxStep_rxLenBadA l (of_decide_eq_true hw)
  case rxLenBadB l => exact decodeRxStep_length l _
  case rxLenOk l b => exact decodeRxStep_rxLenOk l (of_decide_eq_true hw)
  case rxTypeReq l | rxTypeRsp l => exact decodeRxStep_packetType l _
  case rxTypeBad l b => exact decodeRxStep_rxTypeBad l (of_decide_eq_true hw)
  case rxKindK00 l | rxKindK02 l | rxKindK04 l | rxKindK05 l | rxKindK07 l | rxKindK13 l
      | rxKindK49 l => exact decodeRxStep_messageType l _
  case rxKindUnkLenient b => exact decodeRxStep_rxKindUnk true (of_decide_eq_true hw)
  case rxKindUnkStrict b => exact decodeRxStep_rxKindUnk false (of_decide_eq_true hw)
  case rxBody l b => exact decodeRxStep_body l b
  case rxCsum l b => exact decodeRxStep_checksum l b
  case rxRsv6 l b => exact decodeRxStep_rsv6 l b
  case rxRsv7 l b => exact decodeRxStep_rsv7 l b
  case csuInit absorb => exact congrArg some (decodeCsu_strobes true absorb _)
  case csuAbsorb b => exact congrArg some (decodeCsu_strobes false true b)
  case csuHold => exact congrArg some (decodeCsu_strobes false false _)

/-- The word of any policy bit, state code and byte decodes to a well-formed instruction that encodes to
it: a byte that the state names has its own row, every other byte the state's last one. -/
theorem exists_decodeRxStep_rxStepWord (l : Bool) (c : BitVec 3) (b : Byte) :
    ∃ i, decodeRxStep (rxStepWord l c b) = some i ∧ i.wellFormed = true ∧
      encode i = .rxStep (rxStepWord l c b) := by
  rcases stateCode_cases c with rfl | rfl | rfl | rfl | rfl | rfl | rfl | rfl
  · by_cases hb : b ∈ Config.preambles
    · simp only [Config.preambles, List.mem_cons, List.not_mem_nil, or_false] at hb
      rcases hb with rfl | rfl | rfl | rfl <;> exact ⟨_, decodeRxStep_preamble l _, rfl, rfl⟩
    · exact ⟨_, decodeRxStep_rxPreBad l hb, decide_eq_true hb, rfl⟩
  · rcases (by bv_omega : b.toNat < 2 ∨ b = 0x02 ∨ 3 ≤ b.toNat) with hb | rfl | hb
    · exact ⟨_, decodeRxStep_rxLenBadA l hb, decide_eq_true hb, rfl⟩
    · exact ⟨_, decodeRxStep_length l _, rfl, rfl⟩
    · exact ⟨_, decodeRxStep_rxLenOk l hb, decide_eq_true hb, rfl⟩
  · by_cases hb : b ∈ Config.knownTypes
    · simp only [Config.knownTypes, List.mem_cons, List.not_mem_nil, or_false] at hb
      rcases hb with rfl | rfl <;> exact ⟨_, decodeRxStep_packetType l _, rfl, rfl⟩
    · exact ⟨_, decodeRxStep_rxTypeBad l hb, decide_eq_true hb, rfl⟩
  · by_cases hb : b ∈ Config.knownKinds
    · simp only [Config.knownKinds, List.mem_cons, List.not_mem_nil, or_false] at hb
      rcases hb with rfl | rfl | rfl | rfl | rfl | rfl | rfl <;>
        exact ⟨_, decodeRxStep_messageType l _, rfl, rfl⟩
    · refine ⟨_, decodeRxStep_rxKindUnk l hb, ?_⟩
      cases l <;> exact ⟨decide_eq_true hb, rfl⟩
  · exact ⟨_, decodeRxStep_body l b, rfl, rfl⟩
  · exact ⟨_, decodeRxStep_checksum l b, rfl, rfl⟩
  · exact ⟨_, decodeRxStep_rsv6 l b, rfl, rfl⟩
  · exact ⟨_, decodeRxStep_rsv7 l b, rfl, rfl⟩

/-- Settles O8: every word is that of a policy bit, a state code and a byte. -/
theorem everyRxStepWordIsOneInstruction : Obligations.EveryRxStepWordIsOneInstruction := by
  intro w
  rw [← rxStepWord_split w]
  exact exists_decodeRxStep_rxStepWord _ _ _

end Sys2Proof
end

section
/-! CODES AND THE STEP: the output codes (R92, R221), the reserved state codes (R93), and the step as the
operations that the next edge's port word decodes to (R89, R203, R204, R261). -/

namespace Sys2Proof.Machine

/-! ### The codes -/

/-- The code 0 is that of PREAMBLE alone (R92). -/
theorem RxState.code_eq_zero_iff (st : RxState) : st.code = 0 ↔ st = .preamble := by
  cases st <;> decide

/-- Settles O13: the codes by evaluation, and `o_rx_state` as the code of the FSM state. -/
theorem outputCodes : Obligations.OutputCodes :=
  ⟨⟨rfl, rfl, rfl, rfl, rfl, rfl⟩, fun s => ⟨rfl, s.rx.rxState.code_eq_zero_iff⟩, ⟨rfl, rfl, rfl⟩,
    ⟨rfl, rfl, rfl, rfl, rfl, rfl⟩, rfl, rfl⟩

/-- Settles O40: both rows refuse, are rows 23 and 24 of the table, and have no FSM state. -/
theorem reservedCodesAreRefused : Obligations.ReservedCodesAreRefused :=
  ⟨fun _ _ _ => ⟨rfl, rfl⟩, fun l b => ⟨decodeRxStep_rsv6 l b, decodeRxStep_rsv7 l b⟩,
    RxState.code_ne_reserved⟩

/-! ### The step -/

/-- The next edge of a script that has not ended. -/
theorem State.nextEdge_of_script {s : State} {e : Edge} {rest : List Edge}
    (h : s.script = e :: rest) : s.nextEdge = e := by
  rw [State.nextEdge, h]

/-- The state once that edge is taken. -/
theorem State.dropEdge_of_script {s : State} {e : Edge} {rest : List Edge}
    (h : s.script = e :: rest) : s.dropEdge = { s with script := rest } := by
  rw [State.dropEdge, h, List.tail_cons]

/-- A run of one operation is that operation. -/
theorem runInstrs_singleton (run : Instr → State → Result) (i : Instr) (s : State) :
    runInstrs run [i] s = run i s := by
  cases h : run i s with
  | next t => exact runInstrs_cons_next h []
  | fault r => exact runInstrs_cons_fault h []
  | refused r => exact runInstrs_cons_refused h []

/-- Settles O14: `step_reset`, `step_run` and `step_strapChanged` on the script's first edge. -/
theorem stepRunsDecodedEdge : Obligations.StepRunsDecodedEdge := by
  intro s e rest h
  have hedge := State.nextEdge_of_script h
  have hdrop := State.dropEdge_of_script h
  refine ⟨fun hr => ⟨?_, ?_⟩, fun hr hl => ⟨e.rxInstr, e.txInstr, ?_, ?_, rfl, rfl, ?_⟩,
    fun hr hl => step_strapChanged s (by rwa [hedge]) (by rwa [hedge])⟩
  · rw [Edge.portWord, decodePort_rx, hr]; rfl
  · rw [step_reset s (by rwa [hedge]), hedge, hdrop]
    rfl
  · rw [Edge.portWord, decodePort_rx, hr]; rfl
  · rw [Edge.portWord, decodePort_tx, hr]; rfl
  · have hstep := step_run s (by rwa [hedge]) (by rwa [hedge])
    rw [hedge, hdrop] at hstep
    refine hstep.trans ?_
    change runInstrs exec [e.rxInstr, e.txInstr] _ = _
    cases hi : exec e.rxInstr { s with script := rest } with
    | next t => rw [runInstrs_cons_next hi, runInstrs_singleton]
    | fault r => exact runInstrs_cons_fault hi _
    | refused r => exact runInstrs_cons_refused hi _

end Sys2Proof.Machine
end

section
/-! THE PSEUDO-OPERATIONS (R98): what TX.FRAME leaves for the host, and the frames that `Create` builds for
the four lines (R180, R183). -/

namespace Sys2Proof.Machine

/-! ### What TX.FRAME leaves -/

/-- The host reads back the bytes of a frame that fits the TX buffer (R184). -/
theorem State.txBytes_sendFrame (s : State) (o : TxOutputs) {bytes : List Byte}
    (h : bytes.length ≤ Config.frameMax) :
    ({ s with tx := o.sendFrame bytes } : State).txBytes = some bytes := by
  have hlen : (BitVec.ofNat 9 bytes.length).toNat = bytes.length := by
    rw [Config.frameMax] at h
    rw [BitVec.toNat_ofNat]
    omega
  rw [State.txBytes, TxOutputs.sendFrame_oTxLen, hlen]
  exact Memory.readFrom_writeList _ _

/-- TX.FRAME of an accepted descriptor reports OK and shows the frame's bytes (R183). -/
theorem exec_txFrame_accepted (rx : Bool) {d : TxDescriptor} {s : State} {f : Frame}
    (h : acceptedFrame s.lenientKind d = some f) :
    ∃ t, exec (.txFrame rx d) s = .next t ∧ t.tx.oTxStatus = .ok ∧
      t.txBytes = some (serialize f) :=
  ⟨{ s with tx := s.tx.sendFrame (serialize f) }, by simp only [exec, execTxFrame, h], rfl,
    s.txBytes_sendFrame _ (length_serialize_le_of_frameValid (frameValid_of_acceptedFrame h))⟩

/-- TX.FRAME of any other descriptor reports InvalidFrame and shows no byte (R183). -/
theorem exec_txFrame_rejected (rx : Bool) {d : TxDescriptor} {s : State}
    (h : acceptedFrame s.lenientKind d = none) :
    ∃ t, exec (.txFrame rx d) s = .next t ∧ t.tx.oTxStatus = .invalidFrame ∧ t.tx.oTxLen = 0 ∧
      t.txBytes = some [] :=
  ⟨{ s with tx := s.tx.rejectFrame }, by simp only [exec, execTxFrame, h], rfl, rfl, rfl⟩

/-- A descriptor whose body fits is accepted as its candidate frame where that is valid (R183). -/
theorem acceptedFrame_of_create {lenient : Bool} {d : TxDescriptor} {f : Frame}
    (hcnt : d.cnt.toNat ≤ Config.bodyMax) (hf : create d = some f) :
    acceptedFrame lenient d = if frameValid lenient f then some f else none := by
  rw [acceptedFrame, if_neg (by omega), hf]

/-! ### The candidate frames -/

/-- A line with a preamble alone gives the control frame of that preamble (R98, R180). -/
theorem create_txLine_control (pre : Byte) :
    create (txLine pre none none []) = some (Frame.control pre) := rfl

/-- The line of `REQ kk` gives the request frame of kind `kk` with no body (R98, R180). -/
theorem create_reqLine (kk : Byte) :
    create (reqLine kk) = some (Frame.structured 0x03 0x00 kk [] (checksum 0x03 0x00 kk [])) := rfl

/-- The checksum of a request with no body (R98, R120). -/
theorem checksum_reqLine (kk : Byte) : checksum 0x03 0x00 kk [] = 0xFC ^^^ kk := rfl

/-- The line of a control preamble is accepted under either strap (R31, R183). -/
theorem acceptedFrame_txLine_control (lenient : Bool) {pre : Byte}
    (h : pre ∈ Config.controlPreambles) :
    acceptedFrame lenient (txLine pre none none []) = some (Frame.control pre) := by
  have hvalid : frameValid lenient (Frame.control pre) = true :=
    (frameValid_control lenient h).2 ⟨rfl, rfl, rfl, rfl, rfl⟩
  rw [acceptedFrame_of_create (Nat.zero_le _) (create_txLine_control pre), if_pos hvalid]

/-- A structured frame with its own checksum is valid by its length, type and kind (R31). -/
theorem frameValid_structured (lenient : Bool) (len type kind : Byte) (body : List Byte) :
    frameValid lenient (Frame.structured len type kind body (checksum len type kind body)) = true ↔
      len.toNat = 3 + body.length ∧ type ∈ Config.knownTypes ∧
        (kind ∈ Config.knownKinds ∨ lenient = true) := by
  rw [frameValid_sof lenient rfl]
  simp [Frame.structured]

/-- `REQ kk` is accepted exactly where the strap accepts the kind (R31, R98). -/
theorem acceptedFrame_reqLine (lenient : Bool) (kk : Byte) :
    acceptedFrame lenient (reqLine kk) =
      if kk ∈ Config.knownKinds ∨ lenient = true then
        some (Frame.structured 0x03 0x00 kk [] (checksum 0x03 0x00 kk []))
      else none := by
  have hvalid := frameValid_structured lenient 0x03 0x00 kk []
  have hfixed : (0x03 : Byte).toNat = 3 + ([] : List Byte).length ∧
      (0x00 : Byte) ∈ Config.knownTypes := by decide
  rw [acceptedFrame_of_create (Nat.zero_le _) (create_reqLine kk)]
  simp only [hvalid, hfixed, true_and]

/-- SEND.ACK, SEND.NAK and SEND.CAN send their preamble alone (R98). -/
theorem exec_txLine_control (rx : Bool) (s : State) {pre : Byte}
    (h : pre ∈ Config.controlPreambles) :
    ∃ t, exec (.txFrame rx (txLine pre none none [])) s = .next t ∧ t.tx.oTxStatus = .ok ∧
      t.txBytes = some [pre] :=
  exec_txFrame_accepted rx (acceptedFrame_txLine_control s.lenientKind h)

/-- Settles O55: the control lines are accepted under either strap, `REQ kk` where the strap accepts the
kind. -/
theorem pseudoOperationsSend : Obligations.PseudoOperationsSend := by
  refine ⟨rfl, rfl, rfl, fun _ => rfl, fun rx s => ⟨fun x hx => ?_, fun kk => ⟨fun h => ?_, ?_⟩⟩⟩
  · simp only [List.mem_cons, List.not_mem_nil, or_false] at hx
    rcases hx with rfl | rfl | rfl <;> exact exec_txLine_control rx s (by decide)
  · rw [← checksum_reqLine]
    exact exec_txFrame_accepted rx ((acceptedFrame_reqLine s.lenientKind kk).trans (if_pos h))
  · intro hkind hstrict
    refine exec_txFrame_rejected rx ((acceptedFrame_reqLine s.lenientKind kk).trans (if_neg ?_))
    rw [hstrict]
    exact fun h => h.elim hkind Bool.false_ne_true

end Sys2Proof.Machine
end

section
/-! THE CHECKSUM FOLD (R9) and its arithmetic: the closed form of the checksum (R120) and what it detects
(R121). -/

namespace Sys2Proof.Machine

/-! ### Exclusive or of bytes -/

/-- A byte cancels itself. -/
theorem xor_xor_cancel_left (a x : Byte) : a ^^^ (a ^^^ x) = x := by
  rw [← BitVec.xor_assoc, BitVec.xor_self, BitVec.zero_xor]

/-- Two bytes with a common part differ by the difference of the rest. -/
theorem xor_xor_xor_cancel_left (a x y : Byte) : (a ^^^ x) ^^^ (a ^^^ y) = x ^^^ y := by
  calc (a ^^^ x) ^^^ (a ^^^ y) = a ^^^ (a ^^^ (x ^^^ y)) := by ac_rfl
    _ = x ^^^ y := xor_xor_cancel_left a _

/-- Exclusive or solved for its second operand. -/
theorem xor_eq_iff_xor_eq {x y z : Byte} : x ^^^ y = z ↔ z ^^^ x = y := by
  rw [← BitVec.xor_right_inj x, xor_xor_cancel_left, BitVec.xor_comm z, eq_comm]

/-! ### The fold -/

/-- `XorFold` is the library's left fold of exclusive or (R9). -/
theorem xorFold_eq_foldl (a : Byte) (bytes : List Byte) :
    xorFold a bytes = bytes.foldl (· ^^^ ·) a := by
  induction bytes generalizing a with
  | nil => rfl
  | cons b rest ih => exact ih (a ^^^ b)

/-- The order of the bytes does not matter (R121). -/
theorem xorFold_perm (a : Byte) {bytes bytes' : List Byte} (h : bytes.Perm bytes') :
    xorFold a bytes = xorFold a bytes' := by
  simpa only [xorFold_eq_foldl] using h.foldl_eq a

/-- Zero bytes may be left out (R121). -/
theorem xorFold_filter_ne_zero (a : Byte) (bytes : List Byte) :
    xorFold a (bytes.filter (fun b => decide (b ≠ 0))) = xorFold a bytes := by
  induction bytes generalizing a with
  | nil => rfl
  | cons b rest ih =>
    by_cases hb : b = 0
    · subst hb
      rw [List.filter_cons_of_neg (by decide), ih, xorFold_cons]
      exact congrArg (xorFold · rest) BitVec.xor_zero.symm
    · rw [List.filter_cons_of_pos (by simpa using hb), xorFold_cons, xorFold_cons, ih]

/-- Every difference of the seeds stays in the fold. -/
theorem xorFold_left_inj {a b : Byte} (bytes : List Byte) :
    xorFold a bytes = xorFold b bytes ↔ a = b := by
  rw [xorFold_seed a, xorFold_seed b, BitVec.xor_left_inj]

/-- The fold tells the values of any one byte apart (R121). -/
theorem xorFold_append_cons_inj (a : Byte) (before after : List Byte) {x y : Byte} :
    xorFold a (before ++ x :: after) = xorFold a (before ++ y :: after) ↔ x = y := by
  rw [xorFold_append, xorFold_append, xorFold_cons, xorFold_cons, xorFold_left_inj,
    BitVec.xor_right_inj]

/-- An error pattern changes the fold by the fold of the pattern (R121). -/
theorem xorFold_zipWith_xor (a : Byte) {bytes errors : List Byte}
    (h : bytes.length = errors.length) :
    xorFold a (List.zipWith (· ^^^ ·) bytes errors) = xorFold a bytes ^^^ xorFold 0 errors := by
  induction bytes generalizing a errors with
  | nil => rw [List.length_eq_zero_iff.1 h.symm]; exact BitVec.xor_zero.symm
  | cons b bs ih =>
    cases errors with
    | nil => cases h
    | cons e es =>
      rw [List.zipWith_cons_cons, xorFold_cons, ih _ (Nat.succ.inj h), xorFold_cons, xorFold_cons,
        xorFold_seed (a ^^^ (b ^^^ e)), xorFold_seed (a ^^^ b), xorFold_seed (0 ^^^ e),
        show (0 : Byte) ^^^ e = e from BitVec.zero_xor]
      ac_rfl

/-! ### The checksum -/

/-- The checksum is the fold of the body with the three fields before it (R120). -/
theorem checksum_eq_xor (len type kind : Byte) (body : List Byte) :
    checksum len type kind body = 0xFF ^^^ len ^^^ type ^^^ kind ^^^ xorFold 0 body :=
  xorFold_seed _ body

/-- Settles O23: the seed comes out of the fold, and the fold is the library's. -/
theorem checksumIsXor : Obligations.ChecksumIsXor := by
  intro len type kind body
  rw [checksum_eq_xor, xorFold_eq_foldl]

/-- Settles O24: one law of the fold for each clause. -/
theorem checksumLaws : Obligations.ChecksumLaws := by
  refine ⟨fun _ _ => xorFold_perm 0xFF, xorFold_filter_ne_zero 0xFF,
    fun len type kind body body' => ?_, fun before after x y => mt (xorFold_append_cons_inj _ _ _).1,
    fun bytes errors h => ?_⟩
  · rw [checksum_eq_xor, checksum_eq_xor, xor_xor_xor_cancel_left]
  · rw [xorFold_zipWith_xor _ h, xor_eq_iff_xor_eq, BitVec.xor_self]
    exact eq_comm

end Sys2Proof.Machine
end

section
/-! THE CHECKSUM UNIT: each operation writes the accumulator alone (R122 to R124), and a run of them
computes the checksum (R126). -/

namespace Sys2Proof.Machine

/-! ### The three operations -/

/-- CSU.INIT sets the accumulator to the seed (R122). -/
theorem exec_csuInit (absorb : Bool) (s : State) :
    exec (.csuInit absorb) s = .next { s with rx := { s.rx with rxAcc := 0xFF } } := by
  simp only [exec, execCsuInit, RxInFlight.driveCsu, csuNext_init]

/-- CSU.ABSORB exclusive-ors its byte into the accumulator (R123). -/
theorem exec_csuAbsorb (b : Byte) (s : State) :
    exec (.csuAbsorb b) s = .next { s with rx := { s.rx with rxAcc := s.rx.rxAcc ^^^ b } } :=
  rfl

/-- CSU.HOLD changes nothing (R124). -/
theorem exec_csuHold (s : State) : exec .csuHold s = .next s :=
  rfl

/-- Settles O21: what each operation leaves, and the strobes of its word. -/
theorem csuOperationsWriteAccumulator : Obligations.CsuOperationsWriteAccumulator := fun s =>
  ⟨fun absorb => exec_csuInit absorb s, fun b => exec_csuAbsorb b s, exec_csuHold s,
    fun absorb b => decodeCsu_strobes true absorb b, decodeCsu_strobes false true,
    decodeCsu_strobes false false⟩

/-! ### Runs -/

/-- The HOLDs of a run may be left out (R124, R126). -/
theorem runInstrs_filter_csuHold (ops : List Instr) (s : State) :
    runInstrs exec (ops.filter (fun i => decide (i ≠ .csuHold))) s = runInstrs exec ops s := by
  induction ops generalizing s with
  | nil => rfl
  | cons i rest ih =>
    by_cases hi : i = .csuHold
    · rw [List.filter_cons_of_neg (by simpa using hi), ih, hi,
        runInstrs_cons_next (exec_csuHold s)]
    · rw [List.filter_cons_of_pos (by simpa using hi)]
      cases hexec : exec i s with
      | next t => rw [runInstrs_cons_next hexec, runInstrs_cons_next hexec, ih]
      | fault r => rw [runInstrs_cons_fault hexec, runInstrs_cons_fault hexec]
      | refused r => rw [runInstrs_cons_refused hexec, runInstrs_cons_refused hexec]

/-- A run of ABSORBs folds its bytes into the accumulator (R123, R126). -/
theorem runInstrs_map_csuAbsorb (bytes : List Byte) (s : State) :
    runInstrs exec (bytes.map Instr.csuAbsorb) s =
      .next { s with rx := { s.rx with rxAcc := xorFold s.rx.rxAcc bytes } } := by
  induction bytes generalizing s with
  | nil => rfl
  | cons b rest ih =>
    rw [List.map_cons, runInstrs_cons_next (exec_csuAbsorb b s), ih]
    rfl

/-- Settles O22: without its HOLDs the run is INIT and then a run of ABSORBs, which is the fold from the
seed. -/
theorem csuRunGivesChecksum : Obligations.CsuRunGivesChecksum := by
  intro s ops absorb len type kind body h
  rw [← runInstrs_filter_csuHold, h, runInstrs_cons_next (exec_csuInit absorb s),
    runInstrs_map_csuAbsorb]
  rfl

end Sys2Proof.Machine
end

section
/-! `ValidateChecksum` (R127) on each kind of frame, and on the bytes of a serialized frame (R128, R129). -/

namespace Sys2Proof.Machine

/-! ### The kinds of frame -/

/-- A control frame validates (R127). -/
theorem validateChecksum_control {f : Frame} (hp : f.pre ∈ Config.controlPreambles) :
    validateChecksum f = .ok true :=
  if_pos hp

/-- A frame with every field compares its checksum with the computed one (R127). -/
theorem validateChecksum_structured (len type kind c : Byte) (body : List Byte) :
    validateChecksum (Frame.structured len type kind body c) =
      .ok (decide (c = checksum len type kind body)) :=
  rfl

/-- A SOF frame with a field absent is refused (R127). -/
theorem validateChecksum_sof_absent {f : Frame} (hp : f.pre = Config.sof)
    (h : f.len = none ∨ f.type = none ∨ f.kind = none ∨ f.csum = none) :
    validateChecksum f = .error .checksumNotDefined := by
  rw [validateChecksum, if_neg (by rw [hp]; exact sof_notMem_controlPreambles), if_pos hp]
  split
  · next hcsum hlen htype hkind => simp [hcsum, hlen, htype, hkind] at h
  · rfl

/-- A frame with any other preamble is refused (R127). -/
theorem validateChecksum_otherPreamble {f : Frame} (hctrl : f.pre ∉ Config.controlPreambles)
    (hsof : f.pre ≠ Config.sof) : validateChecksum f = .error .checksumNotDefined := by
  rw [validateChecksum, if_neg hctrl, if_neg hsof]

/-- Settles O25: one lemma for each kind of frame. -/
theorem validateChecksumCases : Obligations.ValidateChecksumCases := by
  refine ⟨fun f hp => validateChecksum_control (by simpa [Config.controlPreambles] using hp),
    validateChecksum_structured, fun f => validateChecksum_sof_absent, fun f hp => ?_⟩
  obtain ⟨hsof, hctrl⟩ := not_or.1 (mt List.mem_cons.2 hp)
  exact validateChecksum_otherPreamble hctrl hsof

/-! ### The bytes of a structured frame -/

/-- A structured frame on the wire: the preamble, the covered bytes, the checksum (R63, R182). -/
theorem serialize_structured (len type kind c : Byte) (body : List Byte) :
    serialize (Frame.structured len type kind body c) =
      Config.sof :: ([len, type, kind] ++ body ++ [c]) :=
  rfl

/-- A structured frame validates exactly when its checksum field is the computed one (R127). -/
theorem validateChecksum_structured_eq_true {len type kind c : Byte} {body : List Byte} :
    validateChecksum (Frame.structured len type kind body c) = .ok true ↔
      checksum len type kind body = c := by
  rw [validateChecksum_structured, Except.ok.injEq, decide_eq_true_iff, eq_comm]

/-- The checksum byte closes the fold of the covered bytes to 0xFF (R129). -/
theorem xorFold_concat_eq_seed_iff {a c : Byte} {bytes : List Byte} :
    xorFold 0 (bytes ++ [c]) = a ↔ xorFold a bytes = c := by
  rw [xorFold_concat, xorFold_seed a, xor_eq_iff_xor_eq]

/-- Settles O26: the serialized bytes in three parts, of which the fold of the middle one is the
checksum. -/
theorem wholeFrameCheckOnBytes : Obligations.WholeFrameCheckOnBytes := by
  intro len type kind c body f bytes
  have hdrop : bytes.drop 1 = [len, type, kind] ++ body ++ [c] := rfl
  have hlast : bytes.getLast? = some c :=
    List.getLast?_concat (l := Config.sof :: ([len, type, kind] ++ body))
  have hvalid : validateChecksum f = .ok true ↔ checksum len type kind body = c :=
    validateChecksum_structured_eq_true
  rw [hdrop, hlast, hvalid, List.dropLast_concat]
  exact ⟨rfl, rfl, rfl, Option.some_inj.symm, xorFold_concat_eq_seed_iff.symm⟩

end Sys2Proof.Machine
end

section
/-! WHAT RX.STEP YIELDS (R140): the rules of R142 to R153 as one relation between a byte, the in-flight
registers and the outcome; RX.STEP completes exactly where the relation has an outcome. -/

namespace Sys2Proof.Machine

/-! ### The buffer rules -/

/-- A rule over the body completes where the count is in the buffer, every byte below it is written, and its
continuation completes (R26, R44, R61). -/
theorem State.withBody_next {s t : State} {k : List Byte → Result} (h : s.withBody k = .next t) :
    s.rx.rxCnt.toNat ≤ Config.bodyMax ∧
      ∃ body, Memory.readFrom s.rx.rxBody 0 s.rx.rxCnt.toNat = some body ∧ k body = .next t := by
  by_cases hc : s.rx.rxCnt.toNat ≤ Config.bodyMax
  · cases hb : Memory.readFrom s.rx.rxBody 0 s.rx.rxCnt.toNat with
    | none => rw [State.withBody_unwritten hc hb] at h; cases h
    | some body => rw [State.withBody_written hc hb] at h; exact ⟨hc, body, rfl, h⟩
  · rw [State.withBody_outOfRange (Nat.not_le.1 hc)] at h; cases h

/-- One body byte more is one more count, which does not overflow inside the buffer (R25, R152). -/
theorem RxInFlight.appendBody_rxCnt {r : RxInFlight} (b : Byte)
    (h : r.rxCnt.toNat < Config.bodyMax) :
    (r.appendBody b).rxCnt.toNat = r.rxCnt.toNat + 1 := by
  rw [Config.bodyMax] at h
  show (r.rxCnt + 1).toNat = r.rxCnt.toNat + 1
  bv_omega

/-- One body byte more is read back after the others (R26, R152). -/
theorem RxInFlight.readFrom_appendBody {r : RxInFlight} {body : List Byte} (b : Byte)
    (h : r.rxCnt.toNat < Config.bodyMax)
    (hbody : Memory.readFrom r.rxBody 0 r.rxCnt.toNat = some body) :
    Memory.readFrom (r.appendBody b).rxBody 0 (r.appendBody b).rxCnt.toNat =
      some (body ++ [b]) := by
  rw [RxInFlight.appendBody_rxCnt b h]
  exact Memory.readFrom_succ _ hbody

/-- RX.BODY below the end of the buffer (R152). -/
theorem exec_rxBody_of_lt (l : Bool) (b : Byte) {s : State}
    (h : s.rx.rxCnt.toNat < Config.bodyMax) :
    exec (.rxBody l b) s = .next (s.noOutcome (s.rx.appendBody b)) :=
  if_pos h

/-- RX.CSUM over a written body (R153). -/
theorem exec_rxCsum_of_written (l : Bool) (b : Byte) {s : State} {body : List Byte}
    (hc : s.rx.rxCnt.toNat ≤ Config.bodyMax)
    (hbody : Memory.readFrom s.rx.rxBody 0 s.rx.rxCnt.toNat = some body) :
    exec (.rxCsum l b) s =
      if b = checksum s.rx.rxLen s.rx.rxType s.rx.rxKind body then
        .next (s.emitPacket b (Frame.structured s.rx.rxLen s.rx.rxType s.rx.rxKind body b))
      else
        .next (s.raiseError .badChecksum b
          (Frame.structured s.rx.rxLen s.rx.rxType s.rx.rxKind body b).toPart) :=
  State.withBody_written hc hbody _

/-! ### The table of outcomes -/

/-- What a byte yields (R156): NONE, with the in-flight registers to come, or the result, error and record
of an outcome. -/
inductive RxYield where
  | none (q : RxInFlight)
  | report (res : RxResult) (e : RxError) (p : FramePart)

/-- The state that an RX rule of byte `b` ends in (R140, R141). -/
def State.finish (s : State) (b : Byte) (y : RxYield) : State :=
  match y with
  | .none q => s.noOutcome q
  | .report res e p => { s with rx := s.rx.clear, rxOut := s.rxOut.report res e b p }

/-- The rules of the RXSTEP table: what byte `b` yields under the strap `l` from the in-flight registers
`r` (R142 to R153). -/
inductive RxInFlight.Yields (l : Bool) (b : Byte) (r : RxInFlight) : RxYield → Prop where
  | advance {q : RxInFlight} (hq : RxInFlight.Advance l b r q)
      (hsof : r.rxState = .preamble → b = Config.sof) : Yields l b r (.none q)
  | control (hs : r.rxState = .preamble) (hb : b ∈ Config.controlPreambles) :
      Yields l b r (.report .packet .none (Frame.control b).toPart)
  | badPreamble (hs : r.rxState = .preamble) (hb : b ∉ Config.preambles) :
      Yields l b r (.report .error .unknownPreamble FramePart.empty)
  | badLength (hs : r.rxState = .length) (hb : b.toNat < Config.lenMin) :
      Yields l b r (.report .error .badLength
        { FramePart.empty with pre := some Config.sof, len := some b })
  | badType (hs : r.rxState = .packetType) (hb : b ∉ Config.knownTypes) :
      Yields l b r (.report .error .unknownPacketType
        { FramePart.empty with pre := some Config.sof, len := some r.rxLen })
  | badKind (hs : r.rxState = .messageType) (hb : ¬ (b ∈ Config.knownKinds ∨ l = true)) :
      Yields l b r (.report .error .unknownMessageType
        { FramePart.empty with
          pre := some Config.sof, len := some r.rxLen, type := some r.rxType })
  | checked {body : List Byte} (hs : r.rxState = .checksum)
      (hc : r.rxCnt.toNat ≤ Config.bodyMax)
      (hbody : Memory.readFrom r.rxBody 0 r.rxCnt.toNat = some body)
      (hb : b = checksum r.rxLen r.rxType r.rxKind body) :
      Yields l b r (.report .packet .none
        (Frame.structured r.rxLen r.rxType r.rxKind body b).toPart)
  | badChecksum {body : List Byte} (hs : r.rxState = .checksum)
      (hc : r.rxCnt.toNat ≤ Config.bodyMax)
      (hbody : Memory.readFrom r.rxBody 0 r.rxCnt.toNat = some body)
      (hb : b ≠ checksum r.rxLen r.rxType r.rxKind body) :
      Yields l b r (.report .error .badChecksum
        (Frame.structured r.rxLen r.rxType r.rxKind body b).toPart)

/-- In an FSM state RX.STEP is the row that the word of the state's code decodes to (R140). -/
theorem exec_rxStep_row {tx : Bool} {b : Byte} {s : State} {st : RxState} {i : Instr}
    (hs : s.rx.rxState = st) (hd : decodeRxStep (rxStepWord s.lenientKind st.code b) = some i) :
    exec (.rxStep tx b) s = exec i s :=
  exec_rxStep_of_decode (by rw [State.rxWord, hs, hd])

/-- In LENGTH a byte below 3 raises BadLength, whichever of its two rows it decodes to (R145). -/
theorem exec_rxStep_badLength {tx : Bool} {b : Byte} {s : State} (hs : s.rx.rxState = .length)
    (hb : b.toNat < Config.lenMin) : exec (.rxStep tx b) s = rxLenBad b s := by
  rw [Config.lenMin] at hb
  rcases (by bv_omega : b.toNat < 2 ∨ b = 0x02) with hb | rfl
  · exact exec_rxStep_row hs (decodeRxStep_rxLenBadA _ hb)
  · exact exec_rxStep_row hs (decodeRxStep_length _ _)

/-- RX.STEP completes as its rule says. -/
theorem exec_rxStep_of_yields {tx : Bool} {b : Byte} {s : State} {y : RxYield}
    (h : RxInFlight.Yields s.lenientKind b s.rx y) :
    exec (.rxStep tx b) s = .next (s.finish b y) := by
  cases h with
  | advance hq hsof =>
    cases hq with
    | sof hs => obtain rfl := hsof hs; exact exec_rxStep_row hs (decodeRxStep_preamble _ _)
    | length hs hb => exact exec_rxStep_row hs (decodeRxStep_rxLenOk _ hb)
    | packetType hs hb =>
      simp only [Config.knownTypes, List.mem_cons, List.not_mem_nil, or_false] at hb
      rcases hb with rfl | rfl <;> exact exec_rxStep_row hs (decodeRxStep_packetType _ _)
    | messageType hs hb => rw [exec_rxStep_kind hs, if_pos hb]; rfl
    | body hs hc => rw [exec_rxStep_body hs]; exact exec_rxBody_of_lt _ _ hc
  | control hs hb =>
    simp only [Config.controlPreambles, List.mem_cons, List.not_mem_nil, or_false] at hb
    rcases hb with rfl | rfl | rfl <;> exact exec_rxStep_row hs (decodeRxStep_preamble _ _)
  | badPreamble hs hb => exact exec_rxStep_row hs (decodeRxStep_rxPreBad _ hb)
  | badLength hs hb => exact exec_rxStep_badLength hs hb
  | badType hs hb => exact exec_rxStep_row hs (decodeRxStep_rxTypeBad _ hb)
  | badKind hs hb => rw [exec_rxStep_kind hs, if_neg hb]; rfl
  | checked hs hc hbody hb =>
    rw [exec_rxStep_checksum hs, exec_rxCsum_of_written _ _ hc hbody, if_pos hb]; rfl
  | badChecksum hs hc hbody hb =>
    rw [exec_rxStep_checksum hs, exec_rxCsum_of_written _ _ hc hbody, if_neg hb]; rfl

/-- The buffer rules have their bytes: RX.BODY an element to write, RX.CSUM a written body (R158). -/
structure RxInFlight.Ready (r : RxInFlight) : Prop where
  body : r.rxState = .body → r.rxCnt.toNat < Config.bodyMax
  checksum : r.rxState = .checksum → r.rxCnt.toNat ≤ Config.bodyMax ∧
    ∃ body, Memory.readFrom r.rxBody 0 r.rxCnt.toNat = some body

/-- Where the buffer rules have their bytes, every byte has a rule (R91). -/
theorem RxInFlight.Ready.exists_yields {r : RxInFlight} (h : r.Ready) (l : Bool) (b : Byte) :
    ∃ y, RxInFlight.Yields l b r y := by
  have hinside : ∀ st, r.rxState = st → st ≠ .preamble → r.rxState = .preamble → b = Config.sof :=
    fun st hs hne hp => absurd (hs.symm.trans hp) hne
  cases hs : r.rxState with
  | preamble =>
    by_cases hb : b ∈ Config.preambles
    · rcases List.mem_cons.1 hb with hsof | hctrl
      · exact ⟨_, .advance (.sof hs) fun _ => hsof⟩
      · exact ⟨_, .control hs hctrl⟩
    · exact ⟨_, .badPreamble hs hb⟩
  | length =>
    by_cases hb : Config.lenMin ≤ b.toNat
    · exact ⟨_, .advance (.length hs hb) (hinside _ hs (by decide))⟩
    · exact ⟨_, .badLength hs (Nat.not_le.1 hb)⟩
  | packetType =>
    by_cases hb : b ∈ Config.knownTypes
    · exact ⟨_, .advance (.packetType hs hb) (hinside _ hs (by decide))⟩
    · exact ⟨_, .badType hs hb⟩
  | messageType =>
    by_cases hb : b ∈ Config.knownKinds ∨ l = true
    · exact ⟨_, .advance (.messageType hs hb) (hinside _ hs (by decide))⟩
    · exact ⟨_, .badKind hs hb⟩
  | body => exact ⟨_, .advance (.body hs (h.body hs)) (hinside _ hs (by decide))⟩
  | checksum =>
    obtain ⟨hc, body, hbody⟩ := h.checksum hs
    by_cases hb : b = Machine.checksum r.rxLen r.rxType r.rxKind body
    · exact ⟨_, .checked hs hc hbody hb⟩
    · exact ⟨_, .badChecksum hs hc hbody hb⟩

/-- Where RX.STEP completes, the buffer rules have their bytes. -/
theorem RxInFlight.ready_of_exec_rxStep {tx : Bool} {b : Byte} {s t : State}
    (h : exec (.rxStep tx b) s = .next t) : s.rx.Ready where
  body hs := by
    rw [exec_rxStep_body hs] at h
    exact (exec_rxBody_next h).1
  checksum hs := by
    rw [exec_rxStep_checksum hs] at h
    obtain ⟨hc, body, hbody, -⟩ := State.withBody_next h
    exact ⟨hc, body, hbody⟩

/-- INVERSION of RX.STEP, rule by rule: it completes exactly as its rule says (R140). -/
theorem exec_rxStep_eq_next_iff {tx : Bool} {b : Byte} {s t : State} :
    exec (.rxStep tx b) s = .next t ↔
      ∃ y, RxInFlight.Yields s.lenientKind b s.rx y ∧ t = s.finish b y := by
  constructor
  · intro h
    obtain ⟨y, hy⟩ := (RxInFlight.ready_of_exec_rxStep h).exists_yields s.lenientKind b
    rw [exec_rxStep_of_yields hy] at h
    cases h
    exact ⟨y, hy, rfl⟩
  · rintro ⟨y, hy, rfl⟩
    exact exec_rxStep_of_yields hy

/-- The record of an outcome fits the output buffer (R33). -/
theorem RxInFlight.Yields.body_length_le {l : Bool} {b : Byte} {r : RxInFlight} {res : RxResult}
    {e : RxError} {p : FramePart} (h : RxInFlight.Yields l b r (.report res e p)) :
    p.body.length ≤ 252 := by
  cases h with
  | checked _ hc hbody _ | badChecksum _ hc hbody _ =>
    exact ((Memory.readFrom_eq_some _ _ _ _).1 hbody).1.trans_le hc
  | control | badPreamble | badLength | badType | badKind => exact Nat.zero_le _

/-- The invariant gives the buffer rules their bytes (R158). -/
theorem State.Inv.ready {s : State} (h : s.Inv) : s.rx.Ready where
  body hs := by
    obtain ⟨-, -, hcnt⟩ := h.fields.body hs
    have := s.rx.rxLen.isLt
    rw [Config.bodyMax]
    omega
  checksum hs := by
    obtain ⟨body, hbody, -⟩ := h.acc.bodyOrChecksum (.inr hs)
    exact ⟨h.fields.rxCnt_le, body, hbody⟩

/-- Settles O41: every word of a state code has its row, and the invariant gives that row what it
reads. -/
theorem rxStepCompletes : Obligations.RxStepCompletes := by
  intro tx b s hs
  obtain ⟨i, hi, -⟩ := exists_decodeRxStep_rxStepWord s.lenientKind s.rx.rxState.code b
  obtain ⟨y, hy⟩ := hs.ready.exists_yields s.lenientKind b
  have hrow : exec (.rxStep tx b) s = exec i s := exec_rxStep_of_decode hi
  exact ⟨i, s.finish b y, hi, hrow, hrow.symm.trans (exec_rxStep_of_yields hy)⟩

end Sys2Proof.Machine
end

section
/-! ROUND TRIPS (R157): `ParsesTo` byte by byte; the bytes of a valid frame parse to it; and a frame
delivered serializes to the bytes that the in-flight registers took in. -/

namespace Sys2Proof.Machine

/-! ### Feeding bytes -/

/-- Feeding completes where RX.STEP of the first byte and then the rest do (R69). -/
theorem feed_cons_eq_next_iff {b : Byte} {bs : List Byte} {s t : State} :
    feed (b :: bs) s = .next t ↔
      ∃ u, exec (.rxStep false b) s = .next u ∧ feed bs u = .next t :=
  runInstrs_cons_eq_next

theorem feed_singleton (b : Byte) (s : State) : feed [b] s = exec (.rxStep false b) s :=
  runInstrs_singleton _ _ _

/-- A last byte parses where its step delivers the frame. -/
theorem parsesTo_singleton_iff {b : Byte} {s : State} {f : Frame} :
    ParsesTo [b] s f ↔
      ∃ t, exec (.rxStep false b) s = .next t ∧ t.rxOut.oRxValid = true ∧
        t.rxOut.oRxRes = .packet ∧ t.rxOut.oRxErr = .none ∧ t.shownFields = some f.toPart ∧
        t.rx.rxState = .preamble := by
  rw [ParsesTo, feed_singleton]
  refine and_iff_right fun k hk hlt => ?_
  rw [List.length_singleton] at hlt
  omega

/-- A byte with others after it parses where its step yields NONE and the others parse from there. -/
theorem parsesTo_cons_iff {b : Byte} {bs : List Byte} {s : State} {f : Frame} (hne : bs ≠ []) :
    ParsesTo (b :: bs) s f ↔
      ∃ u, exec (.rxStep false b) s = .next u ∧ u.rxOut.oRxValid = false ∧ ParsesTo bs u f := by
  have hpos : 0 < bs.length := List.length_pos_iff.2 hne
  constructor
  · rintro ⟨hquiet, t, ht, hlast⟩
    obtain ⟨u, hu, hbs⟩ := feed_cons_eq_next_iff.1 ht
    have hprefix : ∀ k, k < bs.length →
        ∃ v, feed (bs.take k) u = .next v ∧ v.rxOut.oRxValid = false := by
      intro k hk
      obtain ⟨v, hv, hvalid⟩ := hquiet (k + 1) k.succ_pos (Nat.succ_lt_succ hk)
      obtain ⟨u', hu', hv'⟩ := feed_cons_eq_next_iff.1 hv
      cases hu.symm.trans hu'
      exact ⟨v, hv', hvalid⟩
    obtain ⟨v, hv, hvalid⟩ := hprefix 0 hpos
    cases hv
    exact ⟨u, hu, hvalid, fun k _ hk => hprefix k hk, t, hbs, hlast⟩
  · rintro ⟨u, hu, hvalid, hquiet, t, ht, hlast⟩
    refine ⟨fun k hk hlt => ?_, t, feed_cons_eq_next_iff.2 ⟨u, hu, ht⟩, hlast⟩
    obtain ⟨j, rfl⟩ := Nat.exists_eq_add_one.2 hk
    rw [List.take_succ_cons]
    rcases Nat.eq_zero_or_pos j with rfl | hj
    · exact ⟨u, feed_cons_eq_next_iff.2 ⟨u, hu, rfl⟩, hvalid⟩
    · obtain ⟨v, hv, hvv⟩ := hquiet j hj (Nat.lt_of_succ_lt_succ hlt)
      exact ⟨v, feed_cons_eq_next_iff.2 ⟨u, hu, hv⟩, hvv⟩

/-! ### From the frame to its bytes and back -/

/-- A byte that moves the in-flight registers comes before the bytes that parse from there. -/
theorem ParsesTo.cons {b : Byte} {bs : List Byte} {s : State} {q : RxInFlight} {f : Frame}
    (hq : RxInFlight.Advance s.lenientKind b s.rx q)
    (hsof : s.rx.rxState = .preamble → b = Config.sof) (hne : bs ≠ [])
    (h : ParsesTo bs (s.noOutcome q) f) : ParsesTo (b :: bs) s f :=
  (parsesTo_cons_iff hne).2 ⟨_, exec_rxStep_of_yields (.advance hq hsof), rfl, h⟩

/-- A byte that yields a packet parses to its frame. -/
theorem parsesTo_singleton_of_yields {b : Byte} {s : State} {f : Frame}
    (h : RxInFlight.Yields s.lenientKind b s.rx (.report .packet .none f.toPart)) :
    ParsesTo [b] s f :=
  parsesTo_singleton_iff.2 ⟨_, exec_rxStep_of_yields h, rfl, rfl, rfl,
    s.shownFields_report _ _ _ _ _ rfl h.body_length_le, rfl⟩

/-- With the first bytes `done` of the body captured, its other bytes and the checksum parse to the
frame. -/
theorem parsesTo_rest_of_body {done rest : List Byte} {c : Byte} {s : State}
    (hs : s.rx.rxState = if s.rx.rxCnt.toNat + 3 = s.rx.rxLen.toNat then .checksum else .body)
    (hlen : s.rx.rxLen.toNat = 3 + (done ++ rest).length)
    (hdone : Memory.readFrom s.rx.rxBody 0 s.rx.rxCnt.toNat = some done)
    (hc : c = checksum s.rx.rxLen s.rx.rxType s.rx.rxKind (done ++ rest)) :
    ParsesTo (rest ++ [c]) s
      (Frame.structured s.rx.rxLen s.rx.rxType s.rx.rxKind (done ++ rest) c) := by
  induction rest generalizing done s with
  | nil =>
    obtain ⟨hcnt, -⟩ := (Memory.readFrom_eq_some _ _ _ _).1 hdone
    have hbyte := s.rx.rxLen.isLt
    rw [List.append_nil] at hlen hc ⊢
    rw [if_pos (by omega)] at hs
    exact parsesTo_singleton_of_yields
      (.checked hs (by rw [Config.bodyMax]; omega) hdone hc)
  | cons b rest ih =>
    obtain ⟨hcnt, -⟩ := (Memory.readFrom_eq_some _ _ _ _).1 hdone
    have hbyte := s.rx.rxLen.isLt
    rw [List.length_append, List.length_cons] at hlen
    rw [if_neg (by omega)] at hs
    have hlt : s.rx.rxCnt.toNat < Config.bodyMax := by rw [Config.bodyMax]; omega
    rw [List.append_cons done b rest] at hc ⊢
    refine ParsesTo.cons (q := s.rx.appendBody b) (.body hs hlt) (by simp [hs]) (by simp)
      (ih (s := s.noOutcome (s.rx.appendBody b)) ?_ ?_
        (RxInFlight.readFrom_appendBody b hlt hdone) hc)
    · rw [State.noOutcome_rx, RxInFlight.appendBody_rxCnt b hlt]
      rfl
    · show s.rx.rxLen.toNat = _
      rw [List.length_append, List.length_append, List.length_singleton]
      omega

/-- The bytes of a structured frame that the strap accepts parse to it. -/
theorem parsesTo_structured {len type kind c : Byte} {body : List Byte} {s : State}
    (hs : s.rx.rxState = .preamble) (hlen : len.toNat = 3 + body.length)
    (htype : type ∈ Config.knownTypes) (hkind : kind ∈ Config.knownKinds ∨ s.lenientKind = true)
    (hc : c = checksum len type kind body) :
    ParsesTo (Config.sof :: len :: type :: kind :: (body ++ [c])) s
      (Frame.structured len type kind body c) := by
  have hthree : len = 3 ↔ (0 : Byte).toNat + 3 = len.toNat := by bv_omega
  refine .cons (.sof hs) (fun _ => rfl) (by simp) ?_
  refine .cons (.length rfl (by rw [Config.lenMin]; omega)) (by simp) (by simp) ?_
  refine .cons (.packetType rfl htype) (by simp) (by simp) ?_
  refine .cons (.messageType rfl hkind) (by simp) (by simp) ?_
  exact parsesTo_rest_of_body (done := []) (if_congr hthree rfl rfl) hlen rfl hc

/-- The bytes of a valid frame with its checksum parse to it. -/
theorem parsesTo_serialize {f : Frame} {s : State} (hs : s.rx.rxState = .preamble)
    (hvalid : frameValid s.lenientKind f = true)
    (hcsum : f.pre = Config.sof → f.csum ≠ none) : ParsesTo (serialize f) s f := by
  obtain ⟨pre, len, type, kind, body, csum⟩ := f
  rcases (frameValid_iff _ _).1 hvalid with
    ⟨hpre, rfl, rfl, rfl, rfl, rfl⟩ | ⟨rfl, l, t, k, rfl, rfl, rfl, hlen, ht, hk, hc⟩
  · exact parsesTo_singleton_of_yields (.control hs hpre)
  · rcases hc with hc | hc
    · exact absurd hc (hcsum rfl)
    · obtain rfl : csum = some (checksum l t k body) := hc
      exact parsesTo_structured hs hlen ht hk rfl

/-- TX.FRAME sends the candidate frame (R183). -/
theorem create_of_acceptedFrame {lenient : Bool} {d : TxDescriptor} {f : Frame}
    (h : acceptedFrame lenient d = some f) : create d = some f := by
  unfold acceptedFrame at h
  split at h
  · cases h
  · split at h
    · next hf => split at h <;> cases h; exact hf
    · cases h

/-- A candidate frame with a length, a type and a kind has a checksum (R180). -/
theorem csum_ne_none_of_create {d : TxDescriptor} {f : Frame} {len type kind : Byte}
    (h : create d = some f) (hlen : f.len = some len) (htype : f.type = some type)
    (hkind : f.kind = some kind) : f.csum ≠ none := by
  unfold create at h
  split at h
  · cases h; cases hlen
  · split at h <;> cases h
    simp only at htype hkind
    simp [createChecksum, htype, hkind]

/-- The frame that TX.FRAME sends has its checksum, where it is structured (R180, R183). -/
theorem csum_ne_none_of_acceptedFrame {lenient : Bool} {d : TxDescriptor} {f : Frame}
    (h : acceptedFrame lenient d = some f) (hsof : f.pre = Config.sof) : f.csum ≠ none := by
  obtain ⟨len, type, kind, hlen, htype, hkind, -⟩ :=
    (frameValid_sof lenient hsof).1 (frameValid_of_acceptedFrame h)
  exact csum_ne_none_of_create (create_of_acceptedFrame h) hlen htype hkind

/-- Settles O47: the frame sent is valid under the strap and has its checksum, so that its bytes parse to
it. -/
theorem transmittedFrameParsesBack : Obligations.TransmittedFrameParsesBack := by
  intro rx d s t h hok
  rcases exec_txFrame_cases rx d s with ⟨f, hf, hexec⟩ | ⟨-, hexec⟩ <;> rw [hexec] at h <;> cases h
  · have hvalid := frameValid_of_acceptedFrame hf
    exact ⟨_, f, create_of_acceptedFrame hf, rfl,
      s.txBytes_sendFrame _ (length_serialize_le_of_frameValid hvalid),
      fun r hr hl => parsesTo_serialize hr (hl ▸ hvalid) (csum_ne_none_of_acceptedFrame hf)⟩
  · cases hok

/-! ### From the bytes to the frame and back -/

/-- The in-flight registers hold the bytes of the frame in progress, SOF first (R21 to R26). -/
def RxInFlight.Holds (r : RxInFlight) (bytes : List Byte) : Prop :=
  match r.rxState with
  | .preamble => bytes = []
  | .length => r.rxCnt = 0 ∧ bytes = [Config.sof]
  | .packetType => r.rxCnt = 0 ∧ bytes = [Config.sof, r.rxLen]
  | .messageType => r.rxCnt = 0 ∧ bytes = [Config.sof, r.rxLen, r.rxType]
  | .body | .checksum =>
    ∃ body, Memory.readFrom r.rxBody 0 r.rxCnt.toNat = some body ∧
      bytes = [Config.sof, r.rxLen, r.rxType, r.rxKind] ++ body

/-- With a body in progress or complete, the bytes held are the four before it and the body. -/
theorem RxInFlight.holds_of_body {r : RxInFlight} {bytes body : List Byte}
    (hs : r.rxState = .body ∨ r.rxState = .checksum)
    (hbody : Memory.readFrom r.rxBody 0 r.rxCnt.toNat = some body)
    (hbytes : bytes = [Config.sof, r.rxLen, r.rxType, r.rxKind] ++ body) : r.Holds bytes := by
  rcases hs with hs | hs <;> simp only [RxInFlight.Holds, hs] <;> exact ⟨body, hbody, hbytes⟩

/-- A byte that moves the in-flight registers is held after the others. -/
theorem RxInFlight.Holds.advance {l : Bool} {b : Byte} {r q : RxInFlight} {bytes : List Byte}
    (h : r.Holds bytes) (hq : RxInFlight.Advance l b r q)
    (hsof : r.rxState = .preamble → b = Config.sof) : q.Holds (bytes ++ [b]) := by
  cases hq with
  | sof hs =>
    simp only [RxInFlight.Holds, hs] at h
    subst h
    exact ⟨rfl, congrArg (fun x => [x]) (hsof hs)⟩
  | length hs | packetType hs =>
    simp only [RxInFlight.Holds, hs] at h
    obtain ⟨hcnt, rfl⟩ := h
    exact ⟨hcnt, rfl⟩
  | messageType hs =>
    simp only [RxInFlight.Holds, hs] at h
    obtain ⟨hcnt, rfl⟩ := h
    refine RxInFlight.holds_of_body (body := []) ?_ ?_ rfl
    · simp only [RxInFlight.driveCsu_rxState]
      split <;> simp
    · simp only [RxInFlight.driveCsu_rxBody, RxInFlight.driveCsu_rxCnt, hcnt]
      rfl
  | body hs hc =>
    simp only [RxInFlight.Holds, hs] at h
    obtain ⟨body, hbody, rfl⟩ := h
    refine RxInFlight.holds_of_body ?_ (RxInFlight.readFrom_appendBody b hc hbody)
      (List.append_assoc _ _ _)
    simp only [RxInFlight.appendBody]
    split <;> simp

/-- The frame of a packet is serialized as the bytes held and the last one. -/
theorem RxInFlight.Holds.serialize_packet {l : Bool} {b : Byte} {r : RxInFlight}
    {bytes : List Byte} {e : RxError} {f : Frame} (h : r.Holds bytes)
    (hy : RxInFlight.Yields l b r (.report .packet e f.toPart)) : serialize f = bytes ++ [b] := by
  obtain ⟨pre, len, type, kind, body, csum⟩ := f
  cases hy with
  | control hs =>
    simp only [RxInFlight.Holds, hs] at h
    rw [h]
    rfl
  | checked hs _ hbody =>
    simp only [RxInFlight.Holds, hs] at h
    obtain ⟨body', hbody', rfl⟩ := h
    cases hbody.symm.trans hbody'
    exact serialize_structured _ _ _ _ _

/-- What the bytes parse to is serialized as the bytes held before them and themselves. -/
theorem ParsesTo.serialize_eq {bytes held : List Byte} {s : State} {f : Frame}
    (h : ParsesTo bytes s f) (hne : bytes ≠ []) (hheld : s.rx.Holds held) :
    serialize f = held ++ bytes := by
  induction bytes generalizing s held with
  | nil => exact absurd rfl hne
  | cons b bs ih =>
    by_cases hbs : bs = []
    · subst hbs
      obtain ⟨t, ht, hvalid, hres, -, hshown, -⟩ := parsesTo_singleton_iff.1 h
      obtain ⟨y, hy, rfl⟩ := exec_rxStep_eq_next_iff.1 ht
      cases y with
      | none q => cases hvalid
      | report res e p =>
        rw [s.shownFields_report _ _ _ _ _ rfl hy.body_length_le] at hshown
        cases hshown
        cases hres
        exact hheld.serialize_packet hy
    · obtain ⟨u, hu, hvalid, hrest⟩ := (parsesTo_cons_iff hbs).1 h
      obtain ⟨y, hy, rfl⟩ := exec_rxStep_eq_next_iff.1 hu
      cases hy with
      | advance hq hsof =>
        rw [ih hrest hbs (hheld.advance hq hsof), List.append_assoc, List.singleton_append]
      | _ => cases hvalid

/-- Settles O48: in PREAMBLE the in-flight registers hold no byte, so the frame is serialized as the bytes
that parsed to it. -/
theorem deliveredFrameReserializes : Obligations.DeliveredFrameReserializes := by
  intro s bytes f hs hne h
  exact h.serialize_eq (held := []) hne (by simp only [RxInFlight.Holds, hs])

end Sys2Proof.Machine
end

section
/-! THE ROWS OF THE RXSTEP TABLE one by one (R142 to R153): the words of each, what its rule leaves, and that
RX.STEP is the row in its FSM state; then the preamble values inside a frame (R154). -/

namespace Sys2Proof.Machine

/-! ### PREAMBLE -/

/-- Settles O28: SOF drives CSU.INIT and stores nothing. -/
theorem sofStartsFrame : Obligations.SofStartsFrame :=
  ⟨fun l => decodeRxStep_preamble l _,
    fun _ _ => ⟨_, rfl, rfl, rfl, rfl, rfl, rfl, rfl, rfl, rfl, rfl, rfl, rfl⟩,
    fun _ _ hs => exec_rxStep_row hs (decodeRxStep_preamble _ _)⟩

/-- The rule of the three control rows delivers the control frame (R143). -/
theorem rxControl_delivers (b : Byte) (s : State) :
    ∃ t, rxControl b s = .next t ∧ s.Delivers t b (Frame.control b) :=
  ⟨_, rfl, s.delivers_emitPacket b _ (Nat.zero_le _)⟩

/-- Settles O29: the three rows are `rxControl` of their bytes. -/
theorem controlByteDeliversFrame : Obligations.ControlByteDeliversFrame := by
  have hdec : ∀ l : Bool, decodeRxStep (rxStepWord l 0 0x06) = some (.rxPreAck l) ∧
      decodeRxStep (rxStepWord l 0 0x15) = some (.rxPreNak l) ∧
      decodeRxStep (rxStepWord l 0 0x18) = some (.rxPreCan l) := fun l =>
    ⟨decodeRxStep_preamble l _, decodeRxStep_preamble l _, decodeRxStep_preamble l _⟩
  refine ⟨hdec, fun l s => ⟨rxControl_delivers _ s, rxControl_delivers _ s, rxControl_delivers _ s⟩,
    fun tx s hs => ?_⟩
  obtain ⟨hack, hnak, hcan⟩ := hdec s.lenientKind
  exact ⟨exec_rxStep_row hs hack, exec_rxStep_row hs hnak, exec_rxStep_row hs hcan⟩

/-- Settles O30: the error entry with the empty Partial. -/
theorem otherPreambleRaises : Obligations.OtherPreambleRaises :=
  ⟨fun l _ hb => decodeRxStep_rxPreBad l hb,
    fun _ _ s => ⟨_, rfl, s.raises_raiseError _ _ _ (Nat.zero_le _)⟩,
    fun _ _ _ hs hb => exec_rxStep_row hs (decodeRxStep_rxPreBad _ hb)⟩

/-! ### LENGTH -/

/-- The rule of the two bad-length rows raises BadLength (R145). -/
theorem rxLenBad_raises (b : Byte) (s : State) :
    ∃ t, rxLenBad b s = .next t ∧
      s.Raises t .badLength b { FramePart.empty with pre := some Config.sof, len := some b } :=
  ⟨_, rfl, s.raises_raiseError _ _ _ (Nat.zero_le _)⟩

/-- Settles O31: the two rows are `rxLenBad` of their bytes. -/
theorem shortLengthRaises : Obligations.ShortLengthRaises := by
  have hdec : ∀ l : Bool, decodeRxStep (rxStepWord l 1 0x00) = some (.rxLenBadA l 0x00) ∧
      decodeRxStep (rxStepWord l 1 0x01) = some (.rxLenBadA l 0x01) ∧
      decodeRxStep (rxStepWord l 1 0x02) = some (.rxLenBadB l) := fun l =>
    ⟨decodeRxStep_length l _, decodeRxStep_length l _, decodeRxStep_length l _⟩
  refine ⟨hdec, fun _ => rxLenBad_raises, fun _ => rxLenBad_raises _, fun tx s hs => ?_⟩
  obtain ⟨h0, h1, h2⟩ := hdec s.lenientKind
  exact ⟨exec_rxStep_row hs h0, exec_rxStep_row hs h1, exec_rxStep_row hs h2⟩

/-- Settles O32: the length is stored and absorbed. -/
theorem lengthIsStored : Obligations.LengthIsStored :=
  ⟨fun l _ hb => decodeRxStep_rxLenOk l hb,
    fun _ _ _ => ⟨_, rfl, rfl, rfl, rfl, rfl, rfl, rfl, rfl, rfl, rfl, rfl, rfl⟩,
    fun _ _ _ hs hb => exec_rxStep_row hs (decodeRxStep_rxLenOk _ hb)⟩

/-! ### PACKET_TYPE -/

/-- The rule of the two known types stores and absorbs its byte (R147). -/
theorem rxTypeOk_stores (b : Byte) (s : State) : ∃ t, rxTypeOk b s = .next t ∧
    t.rx.rxState = .messageType ∧ t.rx.rxType = b ∧ t.rx.rxAcc = s.rx.rxAcc ^^^ b ∧
    t.rx.rxLen = s.rx.rxLen ∧ t.rx.rxKind = s.rx.rxKind ∧ t.rx.rxCnt = s.rx.rxCnt ∧
    t.rx.rxBody = s.rx.rxBody ∧ s.RxQuiet t ∧ s.SameOutsideRx t :=
  ⟨_, rfl, rfl, rfl, rfl, rfl, rfl, rfl, rfl, rfl, rfl, rfl, rfl⟩

/-- Settles O33: the two rows are `rxTypeOk` of their bytes. -/
theorem knownTypeIsStored : Obligations.KnownTypeIsStored := by
  have hdec : ∀ l : Bool, decodeRxStep (rxStepWord l 2 0x00) = some (.rxTypeReq l) ∧
      decodeRxStep (rxStepWord l 2 0x01) = some (.rxTypeRsp l) := fun l =>
    ⟨decodeRxStep_packetType l _, decodeRxStep_packetType l _⟩
  refine ⟨hdec, fun l s x hx => ?_, fun tx s hs => ?_⟩
  · simp only [List.mem_cons, List.not_mem_nil, or_false] at hx
    rcases hx with rfl | rfl <;> exact rxTypeOk_stores _ s
  · obtain ⟨hreq, hrsp⟩ := hdec s.lenientKind
    exact ⟨exec_rxStep_row hs hreq, exec_rxStep_row hs hrsp⟩

/-- Settles O34: the error entry with the length in the Partial. -/
theorem unknownTypeRaises : Obligations.UnknownTypeRaises := by
  have hdec : ∀ (l : Bool) (b : Byte), b ≠ 0x00 → b ≠ 0x01 →
      decodeRxStep (rxStepWord l 2 b) = some (.rxTypeBad l b) := fun l b h0 h1 => by
    rw [decodeRxStep_packetType, if_neg h0, if_neg h1]
  exact ⟨hdec, fun _ _ s => ⟨_, rfl, s.raises_raiseError _ _ _ (Nat.zero_le _)⟩,
    fun _ _ _ hs h0 h1 => exec_rxStep_row hs (hdec _ _ h0 h1)⟩

/-! ### MESSAGE_TYPE -/

/-- The rule of the accepted kinds stores and absorbs its byte; a LENGTH of 3 has no body (R149). -/
theorem rxKindOk_stores (b : Byte) (s : State) : ∃ t, rxKindOk b s = .next t ∧
    t.rx.rxState = (if s.rx.rxLen = 0x03 then .checksum else .body) ∧
    t.rx.rxKind = b ∧ t.rx.rxAcc = s.rx.rxAcc ^^^ b ∧
    t.rx.rxLen = s.rx.rxLen ∧ t.rx.rxType = s.rx.rxType ∧ t.rx.rxCnt = s.rx.rxCnt ∧
    t.rx.rxBody = s.rx.rxBody ∧ s.RxQuiet t ∧ s.SameOutsideRx t :=
  ⟨_, rfl, rfl, rfl, rfl, rfl, rfl, rfl, rfl, rfl, rfl, rfl, rfl⟩

/-- Settles O35: the eight rows are `rxKindOk` of their bytes. -/
theorem acceptedKindIsStored : Obligations.AcceptedKindIsStored := by
  have hdec : ∀ l : Bool, decodeRxStep (rxStepWord l 3 0x00) = some (.rxKindK00 l) ∧
      decodeRxStep (rxStepWord l 3 0x02) = some (.rxKindK02 l) ∧
      decodeRxStep (rxStepWord l 3 0x04) = some (.rxKindK04 l) ∧
      decodeRxStep (rxStepWord l 3 0x05) = some (.rxKindK05 l) ∧
      decodeRxStep (rxStepWord l 3 0x07) = some (.rxKindK07 l) ∧
      decodeRxStep (rxStepWord l 3 0x13) = some (.rxKindK13 l) ∧
      decodeRxStep (rxStepWord l 3 0x49) = some (.rxKindK49 l) := fun l =>
    ⟨decodeRxStep_messageType l _, decodeRxStep_messageType l _, decodeRxStep_messageType l _,
      decodeRxStep_messageType l _, decodeRxStep_messageType l _, decodeRxStep_messageType l _,
      decodeRxStep_messageType l _⟩
  refine ⟨hdec, fun b hb => decodeRxStep_rxKindUnk true hb, fun l b s x hx => ?_, fun tx s hs => ?_⟩
  · simp only [List.mem_cons, List.not_mem_nil, or_false] at hx
    rcases hx with rfl | rfl | rfl | rfl | rfl | rfl | rfl | rfl <;> exact rxKindOk_stores _ s
  · obtain ⟨h00, h02, h04, h05, h07, h13, h49⟩ := hdec s.lenientKind
    refine ⟨exec_rxStep_row hs h00, exec_rxStep_row hs h02, exec_rxStep_row hs h04,
      exec_rxStep_row hs h05, exec_rxStep_row hs h07, exec_rxStep_row hs h13,
      exec_rxStep_row hs h49, fun b hb hl => exec_rxStep_row hs ?_⟩
    rw [hl]
    exact decodeRxStep_rxKindUnk true hb

/-- Settles O36: the error entry with length and type in the Partial. -/
theorem unknownKindRaisesWhenStrict : Obligations.UnknownKindRaisesWhenStrict :=
  ⟨fun _ hb => decodeRxStep_rxKindUnk false hb,
    fun _ s => ⟨_, rfl, s.raises_raiseError _ _ _ (Nat.zero_le _)⟩,
    fun _ _ _ hs hl hb => exec_rxStep_row hs (hl ▸ decodeRxStep_rxKindUnk false hb)⟩

/-! ### BODY and CHECKSUM -/

/-- Settles O37: the in-flight registers with one body byte more. -/
theorem bodyByteIsAppended : Obligations.BodyByteIsAppended := by
  refine ⟨decodeRxStep_body, fun l b s hc => ?_, fun tx b s hs => exec_rxStep_body hs⟩
  have hlt : s.rx.rxCnt.toNat < Config.bodyMax := Nat.lt_succ_of_le hc
  exact ⟨_, exec_rxBody_of_lt l b hlt, Memory.read_write_same _ _ b,
    fun i hi => Memory.read_write_other _ b hi, RxInFlight.appendBody_rxCnt b hlt, rfl,
    fun hlast => if_pos (by omega), fun hmore => if_neg (by omega), rfl, rfl, rfl, rfl, rfl, rfl,
    rfl⟩

/-- Settles O38: the checksum is compared over the body that is read back from the buffer. -/
theorem checksumByteDeliversOrRejects : Obligations.ChecksumByteDeliversOrRejects := by
  refine ⟨decodeRxStep_checksum, fun l b s body hc hlen hread => ?_,
    fun tx b s hs => exec_rxStep_checksum hs⟩
  have hbody : Memory.readFrom s.rx.rxBody 0 s.rx.rxCnt.toNat = some body := by
    rw [Memory.readFrom_eq_some, ← hlen]
    exact ⟨rfl, fun i hi => by rw [Nat.zero_add, hread i hi]⟩
  have hfit : body.length ≤ 252 := hlen.trans_le hc
  rw [exec_rxCsum_of_written l b hc hbody]
  by_cases hb : b = checksum s.rx.rxLen s.rx.rxType s.rx.rxKind body
  · rw [if_pos hb]
    exact ⟨_, rfl, fun _ => s.delivers_emitPacket b _ hfit, fun hne => absurd hb hne⟩
  · rw [if_neg hb]
    exact ⟨_, rfl, fun heq => absurd heq hb, fun _ => s.raises_raiseError _ b _ hfit⟩

/-! ### The preamble values inside a frame -/

/-- In LENGTH 0x01 is too short and the control values are lengths (R154). -/
theorem decodeRxStep_length_preambleValue (l : Bool) {b : Byte} (hb : b ∈ Config.preambles) :
    decodeRxStep (rxStepWord l 1 b) =
      some (if b = 0x01 then .rxLenBadA l b else .rxLenOk l b) := by
  simp only [Config.preambles, List.mem_cons, List.not_mem_nil, or_false] at hb
  rcases hb with rfl | rfl | rfl | rfl <;> exact decodeRxStep_length l _

/-- In PACKET_TYPE 0x01 is RESPONSE and the control values are unknown types (R154). -/
theorem decodeRxStep_packetType_preambleValue (l : Bool) {b : Byte} (hb : b ∈ Config.preambles) :
    decodeRxStep (rxStepWord l 2 b) =
      some (if b = 0x01 then .rxTypeRsp l else .rxTypeBad l b) := by
  simp only [Config.preambles, List.mem_cons, List.not_mem_nil, or_false] at hb
  rcases hb with rfl | rfl | rfl | rfl <;> exact decodeRxStep_packetType l _

/-- No preamble value is a known kind (R81, R85). -/
theorem notMem_knownKinds_of_mem_preambles : ∀ b ∈ Config.preambles, b ∉ Config.knownKinds := by
  decide

/-- Settles O44: outside PREAMBLE each state decodes the preamble values by its own rows. -/
theorem preambleValuesInsideFrameAreData : Obligations.PreambleValuesInsideFrameAreData := by
  intro tx b s hb
  refine ⟨fun hs => exec_rxStep_row hs (decodeRxStep_length_preambleValue _ hb),
    fun hs => exec_rxStep_row hs (decodeRxStep_packetType_preambleValue _ hb),
    fun hs => exec_rxStep_row hs (decodeRxStep_rxKindUnk _ (notMem_knownKinds_of_mem_preambles b hb)),
    fun hs hc => ?_, fun hs => exec_rxStep_checksum hs⟩
  have hlt : s.rx.rxCnt.toNat < Config.bodyMax := Nat.lt_succ_of_le hc
  rw [exec_rxStep_body hs, exec_rxBody_of_lt _ _ hlt]
  exact ⟨_, rfl, rfl, RxInFlight.appendBody_rxCnt b hlt, Memory.read_write_same _ _ b⟩

end Sys2Proof.Machine
end

section
/-! THE OUTCOME OF A BYTE: exactly one (R156), a valid frame where it is a packet (R155), and a
resynchronized RXD after it (R159). -/

namespace Sys2Proof.Machine

/-! ### One outcome -/

/-- A packet is no error (R156). -/
theorem State.Delivers.not_raises {s t : State} {b b' : Byte} {f : Frame} {e : RxError}
    {p : FramePart} (h : s.Delivers t b f) : ¬ s.Raises t e b' p := fun hr => by
  cases h.res.symm.trans hr.res

/-- Without the pulse there is no packet. -/
theorem State.not_delivers_of_quiet {s t : State} {b : Byte} {f : Frame}
    (h : t.rxOut.oRxValid = false) : ¬ s.Delivers t b f := fun hd => by
  cases h.symm.trans hd.valid

/-- Without the pulse there is no error. -/
theorem State.not_raises_of_quiet {s t : State} {b : Byte} {e : RxError} {p : FramePart}
    (h : t.rxOut.oRxValid = false) : ¬ s.Raises t e b p := fun hr => by
  cases h.symm.trans hr.valid

/-- Settles O42: each of the three ends of an RX rule, told apart by pulse and result. -/
theorem oneOutcomePerByte : Obligations.OneOutcomePerByte := by
  intro tx b s t h
  rcases exec_rxStep_cases h with ⟨r, rfl⟩ | ⟨f, hf, rfl⟩ | ⟨e, p, he, hp, rfl⟩
  · exact .inl ⟨rfl, ⟨rfl, rfl, rfl⟩, fun ⟨_, hd⟩ => State.not_delivers_of_quiet rfl hd,
      fun ⟨_, _, hr⟩ => State.not_raises_of_quiet rfl hr⟩
  · have hd := s.delivers_emitPacket b f hf
    exact .inr (.inl ⟨hd.valid, ⟨f, hd⟩, fun ⟨_, _, hr⟩ => hd.not_raises hr⟩)
  · have hr := s.raises_raiseError e b p hp
    exact .inr (.inr ⟨hr.valid, ⟨e, p, he, hr⟩, fun ⟨_, hd⟩ => hd.not_raises hr⟩)

/-- Settles O43: an outcome ends in `Clear()`, which leaves PREAMBLE. -/
theorem outcomeResynchronizes : Obligations.OutcomeResynchronizes := by
  intro tx b s t h hvalid
  rcases exec_rxStep_pulse h with ⟨hquiet, -⟩ | ⟨-, -, -, hcleared⟩
  · cases hquiet.symm.trans hvalid
  · exact ⟨hcleared, fun _ _ => exec_rxStep_preamble hcleared.1⟩

/-! ### The frame of a packet -/

/-- Under the invariant a packet is a control frame, or a structured frame with the length, type, kind and
checksum that R31 asks for (R155). -/
theorem RxInFlight.Yields.packet_cases {b : Byte} {s : State} {e : RxError} {p : FramePart}
    (hs : s.Inv) (hy : RxInFlight.Yields s.lenientKind b s.rx (.report .packet e p)) :
    (b ∈ Config.controlPreambles ∧ p = (Frame.control b).toPart) ∨
    ∃ len type kind body,
      p = (Frame.structured len type kind body (Machine.checksum len type kind body)).toPart ∧
      len.toNat = 3 + body.length ∧ type ∈ Config.knownTypes ∧
      (kind ∈ Config.knownKinds ∨ s.lenientKind = true) := by
  cases hy with
  | control hp hb => exact .inl ⟨hb, rfl⟩
  | @checked body hc _ hbody hb =>
    obtain ⟨-, htype, hcnt⟩ := hs.fields.checksum hc
    obtain ⟨hlen, -⟩ := (Memory.readFrom_eq_some _ _ _ _).1 hbody
    exact .inr ⟨_, _, _, body, by rw [← hb], by omega, htype, hs.kind (.inr hc)⟩

/-- Settles O45: each of the two kinds of packet is a valid frame whose checksum is right. -/
theorem deliveredFramesAreValid : Obligations.DeliveredFramesAreValid := by
  intro tx b s t hs h hvalid hres
  obtain ⟨y, hy, rfl⟩ := exec_rxStep_eq_next_iff.1 h
  cases y with
  | none q => cases hvalid
  | report res e p =>
    obtain rfl : res = .packet := hres
    rw [s.shownFields_report _ _ _ _ _ rfl hy.body_length_le]
    rcases hy.packet_cases hs with ⟨hb, rfl⟩ | ⟨len, type, kind, body, rfl, hlen, htype, hkind⟩
    · refine ⟨Frame.control b, rfl, (frameValid_control _ hb).2 ⟨rfl, rfl, rfl, rfl, rfl⟩,
        validateChecksum_control hb, fun hpre => ?_⟩
      obtain rfl : b = Config.sof := hpre
      exact absurd hb sof_notMem_controlPreambles
    · exact ⟨_, rfl, (frameValid_structured _ _ _ _ _).2 ⟨hlen, htype, hkind⟩,
        validateChecksum_structured_eq_true.2 rfl,
        fun _ => ⟨len, type, kind, _, rfl, rfl, rfl, rfl, hlen⟩⟩

end Sys2Proof.Machine
end

section
/-! TWO MACHINES THAT AGREE (R160): RX.STEP keeps the agreement of the in-flight registers and yields the
same outcome in both. -/

namespace Sys2Proof.Machine

/-- What a byte yields in two machines that agree: NONE with registers that agree, or one and the same
report. -/
inductive RxYield.Agrees : RxYield → RxYield → Prop where
  | none {q q' : RxInFlight} (h : q.Agrees q') : Agrees (.none q) (.none q')
  | report (res : RxResult) (e : RxError) (p : FramePart) :
      Agrees (.report res e p) (.report res e p)

/-- In PREAMBLE the invariant leaves nothing that two machines could differ in (R28). -/
theorem State.Inv.agrees_of_preamble {s u : State} (hs : s.Inv) (hu : u.Inv)
    (hsp : s.rx.rxState = .preamble) (hup : u.rx.rxState = .preamble) : s.rx.Agrees u.rx := by
  obtain ⟨hslen, hstype, hskind, hscnt⟩ := hs.fields.preamble hsp
  obtain ⟨hulen, hutype, hukind, hucnt⟩ := hu.fields.preamble hup
  constructor
  case rxBody => rw [hscnt, hucnt]; rfl
  case rxAcc => exact fun hne => absurd hsp hne
  all_goals simp only [hsp, hup, hslen, hulen, hstype, hutype, hskind, hukind, hscnt, hucnt]

/-- A byte that moves the in-flight registers moves registers that agree with them alike. -/
theorem RxInFlight.Advance.agrees {l : Bool} {b : Byte} {r r' q : RxInFlight}
    (hadv : RxInFlight.Advance l b r r') (hr : r.AccOk) (h : r.Agrees q) :
    ∃ q', RxInFlight.Advance l b q q' ∧ r'.Agrees q' := by
  obtain ⟨hst, hlen, htype, hkind, hcnt, hbody, hacc⟩ := h
  have habsorb : ∀ {st}, r.rxState = st → st ≠ .preamble →
      r.rxAcc ^^^ b = q.rxAcc ^^^ b := fun hs hne => by rw [hacc (hs ▸ hne)]
  cases hadv with
  | sof hs => exact ⟨_, .sof (hst ▸ hs), rfl, hlen, htype, hkind, rfl, rfl, fun _ => rfl⟩
  | length hs hb =>
    exact ⟨_, .length (hst ▸ hs) hb, rfl, rfl, htype, hkind, hcnt, hbody,
      fun _ => habsorb hs (by decide)⟩
  | packetType hs hb =>
    exact ⟨_, .packetType (hst ▸ hs) hb, rfl, hlen, rfl, hkind, hcnt, hbody,
      fun _ => habsorb hs (by decide)⟩
  | messageType hs hb =>
    exact ⟨_, .messageType (hst ▸ hs) hb, by simp only [RxInFlight.driveCsu_rxState, hlen], hlen,
      htype, rfl, hcnt, hbody, fun _ => habsorb hs (by decide)⟩
  | body hs hc =>
    obtain ⟨body, hbytes, -⟩ := hr.bodyOrChecksum (.inl hs)
    have hc' : q.rxCnt.toNat < Config.bodyMax := hcnt ▸ hc
    refine ⟨_, .body (hst ▸ hs) hc', ?_, hlen, htype, hkind, congrArg (· + 1) hcnt, ?_,
      fun _ => habsorb hs (by decide)⟩
    · simp only [RxInFlight.appendBody, hcnt, hlen]
    · rw [RxInFlight.readFrom_appendBody b hc hbytes,
        RxInFlight.readFrom_appendBody b hc' (hbody.symm.trans hbytes)]

/-- What a byte yields, it yields from registers that agree. -/
theorem RxInFlight.Yields.agrees {l : Bool} {b : Byte} {r q : RxInFlight} {y : RxYield}
    (hy : RxInFlight.Yields l b r y) (hr : r.AccOk) (h : r.Agrees q) :
    ∃ y', RxInFlight.Yields l b q y' ∧ y.Agrees y' := by
  have hst := h.rxState
  cases hy with
  | advance hq hsof =>
    obtain ⟨q', hq', hagrees⟩ := hq.agrees hr h
    exact ⟨_, .advance hq' (hst ▸ hsof), .none hagrees⟩
  | control hs hb => exact ⟨_, .control (hst ▸ hs) hb, .report _ _ _⟩
  | badPreamble hs hb => exact ⟨_, .badPreamble (hst ▸ hs) hb, .report _ _ _⟩
  | badLength hs hb => exact ⟨_, .badLength (hst ▸ hs) hb, .report _ _ _⟩
  | badType hs hb =>
    rw [h.rxLen]
    exact ⟨_, .badType (hst ▸ hs) hb, .report _ _ _⟩
  | badKind hs hb =>
    rw [h.rxLen, h.rxType]
    exact ⟨_, .badKind (hst ▸ hs) hb, .report _ _ _⟩
  | checked hs hc hbody hb =>
    rw [h.rxLen, h.rxType, h.rxKind] at hb ⊢
    exact ⟨_, .checked (hst ▸ hs) (h.rxCnt ▸ hc) (h.rxBody.symm.trans hbody) hb, .report _ _ _⟩
  | badChecksum hs hc hbody hb =>
    rw [h.rxLen, h.rxType, h.rxKind] at hb ⊢
    exact ⟨_, .badChecksum (hst ▸ hs) (h.rxCnt ▸ hc) (h.rxBody.symm.trans hbody) hb,
      .report _ _ _⟩

/-- Two machines in which a byte yields alike agree after it and show the same outcome (R160). -/
theorem State.finish_agrees {s u : State} {y y' : RxYield} (b : Byte) (h : y.Agrees y')
    (hfit : ∀ res e p, y = .report res e p → p.body.length ≤ 252) :
    (s.finish b y).rx.Agrees (u.finish b y').rx ∧ (s.finish b y).SameOutcome (u.finish b y') := by
  cases h with
  | none hq => exact ⟨hq, rfl, fun hvalid => by cases hvalid⟩
  | report res e p =>
    refine ⟨⟨rfl, rfl, rfl, rfl, rfl, rfl, fun _ => rfl⟩, rfl, fun _ => ⟨rfl, rfl, rfl, ?_⟩⟩
    have hp := hfit res e p rfl
    rw [s.shownFields_report _ res e b p rfl hp, u.shownFields_report _ res e b p rfl hp]

/-- Two machines that agree under one strap both complete RX.STEP, agree after it and show the same
outcome. -/
theorem exec_rxStep_agrees (tx : Bool) (b : Byte) {s u : State} (hs : s.Inv)
    (hl : s.lenientKind = u.lenientKind) (h : s.rx.Agrees u.rx) :
    ∃ t v, exec (.rxStep tx b) s = .next t ∧ exec (.rxStep tx b) u = .next v ∧
      t.rx.Agrees v.rx ∧ t.SameOutcome v := by
  obtain ⟨y, hy⟩ := hs.ready.exists_yields s.lenientKind b
  obtain ⟨y', hy', hyy⟩ := hy.agrees hs.acc h
  refine ⟨_, _, exec_rxStep_of_yields hy, exec_rxStep_of_yields (hl ▸ hy'),
    State.finish_agrees b hyy ?_⟩
  rintro res e p rfl
  exact hy.body_length_le

/-- Two machines that agree under one strap do so after any bytes, and show the same outcome of the last. -/
theorem feed_agrees (bytes : List Byte) {s u : State} (hs : s.Inv)
    (hl : s.lenientKind = u.lenientKind) (h : s.rx.Agrees u.rx)
    (hout : bytes = [] → s.SameOutcome u) :
    ∃ t v, feed bytes s = .next t ∧ feed bytes u = .next v ∧ t.rx.Agrees v.rx ∧
      t.SameOutcome v := by
  induction bytes generalizing s u with
  | nil => exact ⟨s, u, rfl, rfl, h, hout rfl⟩
  | cons b bs ih =>
    obtain ⟨s', u', hs', hu', h', hout'⟩ := exec_rxStep_agrees false b hs hl h
    obtain ⟨-, hsl, -⟩ := exec_rxStep_outside hs'
    obtain ⟨-, hul, -⟩ := exec_rxStep_outside hu'
    obtain ⟨t, v, ht, hv, hend⟩ := ih (hs.rxStep hs') (by rw [hsl, hul, hl]) h' fun _ => hout'
    exact ⟨t, v, feed_cons_eq_next_iff.2 ⟨s', hs', ht⟩, feed_cons_eq_next_iff.2 ⟨u', hu', hv⟩, hend⟩

/-- Settles O46: two machines in PREAMBLE agree, and go on to agree byte by byte. -/
theorem bytesBeforeLastOutcomeDoNotMatter : Obligations.BytesBeforeLastOutcomeDoNotMatter := by
  intro s u hs hu hsp hup hl bytes hne
  exact feed_agrees bytes hs hl (hs.agrees_of_preamble hu hsp hup) fun h => absurd h hne

end Sys2Proof.Machine
end

section
/-! `Create` (R180, R181): the fields of the candidate frame, and the two kinds of descriptor that TX.FRAME
accepts (R183, R185). -/

namespace Sys2Proof.Machine

/-! ### The candidate frame -/

/-- The body argument has `cnt` bytes (R95). -/
theorem length_bodyArg (d : TxDescriptor) : (bodyArg d).length = d.cnt.toNat := by
  have hcnt := d.cnt.isLt
  rw [bodyArg, List.length_take, Vector.length_toList]
  omega

/-- The type argument is absent exactly when its flag is low (R95). -/
theorem typeArg_eq_none_iff {d : TxDescriptor} : typeArg d = none ↔ d.typeV = false := by
  simp [typeArg]

/-- The kind argument is absent exactly when its flag is low (R95). -/
theorem kindArg_eq_none_iff {d : TxDescriptor} : kindArg d = none ↔ d.msgV = false := by
  simp [kindArg]

/-- The type argument is the port's value under its flag (R95). -/
theorem typeArg_eq_some_iff {d : TxDescriptor} {type : Byte} :
    typeArg d = some type ↔ d.typeV = true ∧ d.type = type := by
  simp [typeArg]

/-- The kind argument is the port's value under its flag (R95). -/
theorem kindArg_eq_some_iff {d : TxDescriptor} {kind : Byte} :
    kindArg d = some kind ↔ d.msgV = true ∧ d.msg = kind := by
  simp [kindArg]

/-- The candidate frame has a checksum exactly when both flags are high (R180). -/
theorem createChecksum_eq_ite (d : TxDescriptor) (len : Byte) :
    createChecksum d len = if d.typeV = true ∧ d.msgV = true then
      some (checksum len d.type d.msg (bodyArg d)) else none := by
  cases htype : d.typeV <;> cases hmsg : d.msgV <;>
    simp [createChecksum, typeArg, kindArg, htype, hmsg]

/-- With nothing to count, the candidate frame has no length and no checksum (R180). -/
theorem create_of_computedLength_eq_zero {d : TxDescriptor} (h : computedLength d = 0) :
    create d = some { pre := d.pre, len := none, type := typeArg d, kind := kindArg d,
                      body := bodyArg d, csum := none } :=
  if_pos h

/-- Where `computed + 1` is a byte, it is the length of the candidate frame (R180). -/
theorem create_of_computedLength_le {d : TxDescriptor} (hpos : 0 < computedLength d)
    (hle : computedLength d + 1 ≤ 255) :
    ∃ len : Byte, len.toNat = computedLength d + 1 ∧
      create d = some { pre := d.pre, len := some len, type := typeArg d, kind := kindArg d,
                        body := bodyArg d, csum := createChecksum d len } := by
  refine ⟨BitVec.ofNat 8 (computedLength d + 1),
    (BitVec.toNat_ofNat _ _).trans (Nat.mod_eq_of_lt (by omega)), ?_⟩
  rw [create, if_neg (by omega), if_pos hle]

/-- Where `computed + 1` is above 255 there is no candidate frame (log 9). -/
theorem create_of_lt_computedLength {d : TxDescriptor} (h : 255 < computedLength d + 1) :
    create d = none := by
  rw [create, if_neg (by omega), if_neg (by omega)]

/-- The preamble, type, kind and body of a candidate frame are the descriptor's (R180). -/
theorem fields_of_create {d : TxDescriptor} {f : Frame} (h : create d = some f) :
    f.pre = d.pre ∧ f.type = typeArg d ∧ f.kind = kindArg d ∧ f.body = bodyArg d := by
  unfold create at h
  split at h
  · cases h; exact ⟨rfl, rfl, rfl, rfl⟩
  · split at h <;> cases h
    exact ⟨rfl, rfl, rfl, rfl⟩

/-- A descriptor with a preamble alone gives the control frame of that preamble (R180, R185). -/
theorem create_control {d : TxDescriptor} (htype : d.typeV = false) (hmsg : d.msgV = false)
    (hcnt : d.cnt = 0) : create d = some (Frame.control d.pre) := by
  have hbody : bodyArg d = [] := List.eq_nil_of_length_eq_zero (by rw [length_bodyArg, hcnt]; rfl)
  rw [create_of_computedLength_eq_zero (by simp [computedLength, htype, hmsg, hcnt]),
    typeArg_eq_none_iff.2 htype, kindArg_eq_none_iff.2 hmsg, hbody]
  rfl

/-- With both flags and at most 252 body bytes the candidate frame has every field, LENGTH = 3 + `cnt` and
the computed checksum (R181). -/
theorem create_structured {d : TxDescriptor} (htype : d.typeV = true) (hmsg : d.msgV = true)
    (hcnt : d.cnt.toNat ≤ Config.bodyMax) :
    ∃ len : Byte, len.toNat = 3 + d.cnt.toNat ∧
      create d = some { pre := d.pre, len := some len, type := some d.type, kind := some d.msg,
                        body := bodyArg d,
                        csum := some (checksum len d.type d.msg (bodyArg d)) } := by
  have hcomputed : computedLength d = 2 + d.cnt.toNat := by simp [computedLength, htype, hmsg]
  rw [Config.bodyMax] at hcnt
  obtain ⟨len, hlen, hcreate⟩ := create_of_computedLength_le (d := d) (by omega) (by omega)
  refine ⟨len, by omega, ?_⟩
  rw [hcreate, typeArg_eq_some_iff.2 ⟨htype, rfl⟩, kindArg_eq_some_iff.2 ⟨hmsg, rfl⟩,
    createChecksum_eq_ite, if_pos ⟨htype, hmsg⟩]

/-- Settles O52: one lemma for each range of `computed`, and the full descriptor's length. -/
theorem createFollowsDescriptor : Obligations.CreateFollowsDescriptor := by
  intro d
  refine ⟨length_bodyArg d, create_of_computedLength_eq_zero, fun hpos hle => ?_,
    create_of_lt_computedLength, fun htype hmsg hcnt => ?_⟩
  · obtain ⟨len, hlen, hcreate⟩ := create_of_computedLength_le hpos hle
    rw [createChecksum_eq_ite] at hcreate
    exact ⟨len, hlen, hcreate⟩
  · obtain ⟨len, hlen, hcreate⟩ := create_structured htype hmsg hcnt
    exact ⟨_, len, hcreate, rfl, hlen, rfl⟩

/-! ### The descriptors that TX.FRAME accepts -/

/-- A control descriptor: a control preamble and nothing else (R185). -/
def IsControlDescriptor (d : TxDescriptor) : Prop :=
  d.pre ∈ Config.controlPreambles ∧ d.typeV = false ∧ d.msgV = false ∧ d.cnt = 0

/-- A full descriptor that the strap accepts: SOF, both flags, a known type, an accepted kind, a body that
fits (R31, R181). -/
def IsFullDescriptor (lenient : Bool) (d : TxDescriptor) : Prop :=
  d.pre = Config.sof ∧ d.typeV = true ∧ d.msgV = true ∧ d.type ∈ Config.knownTypes ∧
    (d.msg ∈ Config.knownKinds ∨ lenient = true) ∧ d.cnt.toNat ≤ Config.bodyMax

/-- TX.FRAME accepts exactly a valid candidate frame of a body that fits (R183). -/
theorem acceptedFrame_eq_some_iff {lenient : Bool} {d : TxDescriptor} {f : Frame} :
    acceptedFrame lenient d = some f ↔
      d.cnt.toNat ≤ Config.bodyMax ∧ create d = some f ∧ frameValid lenient f = true := by
  constructor
  · intro h
    refine ⟨Nat.not_lt.1 fun hcnt => ?_, create_of_acceptedFrame h, frameValid_of_acceptedFrame h⟩
    rw [acceptedFrame, if_pos hcnt] at h
    cases h
  · rintro ⟨hcnt, hcreate, hvalid⟩
    rw [acceptedFrame_of_create hcnt hcreate, if_pos hvalid]

/-- A control descriptor is accepted as the control frame of its preamble (R185). -/
theorem acceptedFrame_of_isControlDescriptor (lenient : Bool) {d : TxDescriptor}
    (h : IsControlDescriptor d) : acceptedFrame lenient d = some (Frame.control d.pre) := by
  obtain ⟨hpre, htype, hmsg, hcnt⟩ := h
  exact acceptedFrame_eq_some_iff.2 ⟨by rw [hcnt]; exact Nat.zero_le _,
    create_control htype hmsg hcnt, (frameValid_control lenient hpre).2 ⟨rfl, rfl, rfl, rfl, rfl⟩⟩

/-- A full descriptor is accepted as the structured frame of its fields (R181). -/
theorem acceptedFrame_of_isFullDescriptor {lenient : Bool} {d : TxDescriptor}
    (h : IsFullDescriptor lenient d) :
    ∃ len : Byte, len.toNat = 3 + d.cnt.toNat ∧
      acceptedFrame lenient d = some (Frame.structured len d.type d.msg (bodyArg d)
        (checksum len d.type d.msg (bodyArg d))) := by
  obtain ⟨hpre, htypeV, hmsgV, htype, hmsg, hcnt⟩ := h
  obtain ⟨len, hlen, hcreate⟩ := create_structured htypeV hmsgV hcnt
  rw [hpre] at hcreate
  exact ⟨len, hlen, acceptedFrame_eq_some_iff.2 ⟨hcnt, hcreate,
    (frameValid_structured _ _ _ _ _).2 ⟨by rw [length_bodyArg, hlen], htype, hmsg⟩⟩⟩

/-- TX.FRAME accepts no other descriptor (R183). -/
theorem isControlDescriptor_or_isFullDescriptor_of_acceptedFrame {lenient : Bool}
    {d : TxDescriptor} {f : Frame} (h : acceptedFrame lenient d = some f) :
    IsControlDescriptor d ∨ IsFullDescriptor lenient d := by
  obtain ⟨hcnt, hcreate, hvalid⟩ := acceptedFrame_eq_some_iff.1 h
  obtain ⟨hpre, htype, hkind, hbody⟩ := fields_of_create hcreate
  rw [frameValid_iff, hpre, htype, hkind, hbody] at hvalid
  rcases hvalid with ⟨hp, -, ht, hk, hb, -⟩ | ⟨hp, len, type, kind, -, ht, hk, -, htk, hkk, -⟩
  · have hzero : d.cnt.toNat = 0 := by rw [← length_bodyArg, hb]; rfl
    exact .inl ⟨hp, typeArg_eq_none_iff.1 ht, kindArg_eq_none_iff.1 hk,
      BitVec.eq_of_toNat_eq hzero⟩
  · obtain ⟨htv, rfl⟩ := typeArg_eq_some_iff.1 ht
    obtain ⟨hkv, rfl⟩ := kindArg_eq_some_iff.1 hk
    exact .inr ⟨hp, htv, hkv, htk, hkk, hcnt⟩

end Sys2Proof.Machine
end

section
/-! TX.FRAME (R183 to R189): the wire order of `Serialize` (R182), what a frame sent leaves in the outputs,
and what InvalidFrame leaves. -/

namespace Sys2Proof.Machine

/-! ### The wire order -/

/-- The preamble comes first, then each field that is present, in the order of R63 (R182). -/
theorem serialize_eq_cons (f : Frame) : serialize f =
    f.pre :: ((match f.len with | some x => [x] | none => []) ++
      (match f.type with | some x => [x] | none => []) ++
      (match f.kind with | some x => [x] | none => []) ++ f.body ++
      (match f.csum with | some x => [x] | none => [])) := by
  have hfield (x : Option Byte) : x.toList = match x with | some y => [y] | none => [] := by
    cases x <;> rfl
  simp only [serialize, hfield]
  rfl

/-- A structured frame is its body and five more bytes on the wire (R182). -/
theorem length_serialize_structured (len type kind c : Byte) (body : List Byte) :
    (serialize (Frame.structured len type kind body c)).length = body.length + 5 := by
  simp [serialize_structured]

/-- Settles O57: with every field present, four bytes stand before the body and the checksum after it. -/
theorem serializeIsWireOrder : Obligations.SerializeIsWireOrder := by
  refine ⟨serialize_eq_cons, fun len type kind c body hlen => ?_⟩
  have hbytes (i : Nat) :
      (serialize (Frame.structured len type kind body c))[4 + i]? = (body ++ [c])[i]? := by
    rw [Nat.add_comm]
    rfl
  refine ⟨?_, rfl, fun i hi => (hbytes i).trans (List.getElem?_append_left hi),
    (hbytes _).trans List.getElem?_concat_length⟩
  exact (length_serialize_structured len type kind c body).trans (by omega)

/-! ### A frame sent -/

/-- TX.FRAME of an accepted descriptor sends its frame and writes nothing else (R183). -/
theorem exec_txFrame_of_accepted (rx : Bool) {d : TxDescriptor} {s : State} {f : Frame}
    (h : acceptedFrame s.lenientKind d = some f) :
    exec (.txFrame rx d) s = .next { s with tx := s.tx.sendFrame (serialize f) } := by
  simp only [exec, execTxFrame, h]

/-- The length of bytes that fit the buffer is shown as it is (R38). -/
theorem TxOutputs.toNat_sendFrame_oTxLen (o : TxOutputs) {bytes : List Byte}
    (h : bytes.length ≤ Config.frameMax) : (o.sendFrame bytes).oTxLen.toNat = bytes.length := by
  rw [Config.frameMax] at h
  exact (BitVec.toNat_ofNat _ _).trans (Nat.mod_eq_of_lt (by omega))

/-- The bytes sent stand in the buffer from element 0 (R183). -/
theorem TxOutputs.read_sendFrame_of_lt (o : TxOutputs) {bytes : List Byte} {i : Nat}
    (h : i < bytes.length) : Memory.read (o.sendFrame bytes).oTxBuf i = bytes[i]? := by
  rw [TxOutputs.sendFrame_oTxBuf, Memory.read_writeList, if_pos (by omega), Nat.sub_zero]

/-- The elements beyond the bytes sent keep their value (R183). -/
theorem TxOutputs.read_sendFrame_of_le (o : TxOutputs) {bytes : List Byte} {i : Nat}
    (h : bytes.length ≤ i) :
    Memory.read (o.sendFrame bytes).oTxBuf i = Memory.read o.oTxBuf i := by
  rw [TxOutputs.sendFrame_oTxBuf, Memory.read_writeList, if_neg (by omega)]

/-- Settles O49: the descriptor is accepted as a control frame, which is its preamble on the wire. -/
theorem txFrameSendsControlFrame : Obligations.TxFrameSendsControlFrame := by
  intro rx d s hpre htype hmsg hcnt
  have haccepted := acceptedFrame_of_isControlDescriptor s.lenientKind ⟨hpre, htype, hmsg, hcnt⟩
  exact ⟨create_control htype hmsg hcnt, _, exec_txFrame_of_accepted rx haccepted, rfl, rfl, rfl,
    s.tx.read_sendFrame_of_lt (bytes := [d.pre]) Nat.one_pos,
    fun _ => s.tx.read_sendFrame_of_le (bytes := [d.pre]), rfl, rfl, rfl, rfl⟩

/-- Settles O50: the descriptor is accepted as a structured frame, of `cnt + 5` bytes on the wire. -/
theorem txFrameSendsStructuredFrame : Obligations.TxFrameSendsStructuredFrame := by
  intro rx d s hpre htypeV hmsgV htype hmsg hcnt
  obtain ⟨len, hlen, haccepted⟩ :=
    acceptedFrame_of_isFullDescriptor ⟨hpre, htypeV, hmsgV, htype, hmsg, hcnt⟩
  have hfits := length_serialize_le_of_frameValid (frameValid_of_acceptedFrame haccepted)
  have hlength := length_serialize_structured len d.type d.msg
    (checksum len d.type d.msg (bodyArg d)) (bodyArg d)
  rw [length_bodyArg] at hlength
  exact ⟨len, _, _, hlen, rfl, exec_txFrame_of_accepted rx haccepted, rfl, rfl,
    (s.tx.toNat_sendFrame_oTxLen hfits).trans hlength, hlength,
    fun i hi => s.tx.read_sendFrame_of_lt (hi.trans_eq hlength.symm),
    fun i hi => s.tx.read_sendFrame_of_le (hlength.trans_le hi), rfl, rfl, rfl, rfl⟩

/-- Settles O54: the frame sent is a control frame, or a structured one with its own checksum, whose last
byte closes the fold. -/
theorem sentFramesPassTheCheck : Obligations.SentFramesPassTheCheck := by
  intro rx d s t h hok
  rcases exec_txFrame_cases rx d s with ⟨f, hf, hexec⟩ | ⟨-, hexec⟩ <;> rw [hexec] at h <;> cases h
  · have hbytes := s.txBytes_sendFrame s.tx
      (length_serialize_le_of_frameValid (frameValid_of_acceptedFrame hf))
    refine ⟨f, serialize f, create_of_acceptedFrame hf, ?_⟩
    rcases isControlDescriptor_or_isFullDescriptor_of_acceptedFrame hf with hd | hd
    · obtain rfl := Option.some.inj (hf.symm.trans (acceptedFrame_of_isControlDescriptor _ hd))
      obtain ⟨hpre, -⟩ := hd
      refine ⟨validateChecksum_control hpre, hbytes, fun hsof => ?_⟩
      rw [hsof] at hpre
      exact absurd hpre sof_notMem_controlPreambles
    · obtain ⟨len, -, hfull⟩ := acceptedFrame_of_isFullDescriptor hd
      obtain rfl := Option.some.inj (hf.symm.trans hfull)
      exact ⟨validateChecksum_structured_eq_true.2 rfl, hbytes,
        fun _ => xorFold_concat_eq_seed_iff.2 rfl⟩
  · cases hok

/-! ### InvalidFrame -/

/-- InvalidFrame reports status 6 and length 0, and changes nothing else (R183, R232). -/
theorem exec_txFrame_reports_invalidFrame (rx : Bool) {d : TxDescriptor} {s : State}
    (h : acceptedFrame s.lenientKind d = none) :
    ∃ t, exec (.txFrame rx d) s = .next t ∧ t.tx.oTxValid = true ∧ t.tx.oTxStatus.code = 6 ∧
      t.tx.oTxLen = 0 ∧ t.tx.oTxBuf = s.tx.oTxBuf ∧
      t.rx = s.rx ∧ t.rxOut = s.rxOut ∧ t.lenientKind = s.lenientKind ∧ t.script = s.script :=
  ⟨{ s with tx := s.tx.rejectFrame }, by simp only [exec, execTxFrame, h], rfl, rfl, rfl, rfl, rfl,
    rfl, rfl, rfl⟩

/-- Settles O51: an accepted descriptor is a control or a full one. -/
theorem txFrameRejectsEveryOtherDescriptor : Obligations.TxFrameRejectsEveryOtherDescriptor := by
  intro rx d s hcontrol hfull
  refine exec_txFrame_reports_invalidFrame rx (Option.eq_none_iff_forall_ne_some.2 fun f hf => ?_)
  exact (isControlDescriptor_or_isFullDescriptor_of_acceptedFrame hf).elim hcontrol hfull

/-- Settles O53: TX.FRAME accepts exactly the valid candidate frames of a body that fits. -/
theorem txFrameFollowsCreate : Obligations.TxFrameFollowsCreate := by
  refine ⟨fun rx => decodePort_tx false rx true,
    fun rx d s => ⟨fun f hcnt hcreate hvalid => ?_, fun h => ?_⟩⟩
  · have hfits := length_serialize_le_of_frameValid hvalid
    exact ⟨_, exec_txFrame_of_accepted rx (acceptedFrame_eq_some_iff.2 ⟨hcnt, hcreate, hvalid⟩),
      rfl, rfl, s.tx.toNat_sendFrame_oTxLen hfits, s.txBytes_sendFrame s.tx hfits,
      fun _ => s.tx.read_sendFrame_of_le, rfl, rfl, rfl, rfl⟩
  · refine exec_txFrame_reports_invalidFrame rx (Option.eq_none_iff_forall_ne_some.2 fun f hf => ?_)
    obtain ⟨hcnt, hcreate, hvalid⟩ := acceptedFrame_eq_some_iff.1 hf
    rcases h with hlong | hinvalid
    · exact absurd hcnt (Nat.not_le.2 hlong)
    · exact Bool.false_ne_true ((hinvalid f hcreate).symm.trans hvalid)

end Sys2Proof.Machine
end

section
/-! CONTROL (R200 to R202): RESET and the two idle operations, the step after the end of the script, and
idle edges between bytes (R268). -/

namespace Sys2Proof.Machine

/-! ### Reset -/

/-- Settles O1: RESET leaves `State.reset` under the strap and the script held (O2), and both sides
decode it. -/
theorem resetSetsEveryRegister : Obligations.ResetSetsEveryRegister := by
  intro rx tx s
  obtain ⟨hreset, -⟩ := resetStateIsWhatResetLeaves
  refine ⟨_, hreset rx tx s, ?_⟩
  repeat refine ⟨rfl, ?_⟩
  refine ⟨fun rx' tx' => hreset rx' tx' _, fun side => ?_⟩
  cases side with
  | rx => exact decodePort_rx true rx tx
  | tx => exact decodePort_tx true rx tx

/-! ### The idle operations -/

/-- The state with `o_rx_valid` low (R34). -/
def State.quietRx (s : State) : State := { s with rxOut := s.rxOut.quiet }

/-- Two states that differ at most in `o_rx_valid`. -/
theorem State.quietRx_eq_quietRx_iff {s t : State} :
    s.quietRx = t.quietRx ↔ s.rx = t.rx ∧ s.rxOut.quiet = t.rxOut.quiet ∧ s.tx = t.tx ∧
      s.lenientKind = t.lenientKind ∧ s.script = t.script := by
  simp only [State.quietRx, State.mk.injEq]

/-- RX.IDLE clears its pulse alone (R201). -/
theorem exec_rxIdle (tx : Bool) (s : State) : exec (.rxIdle tx) s = .next s.quietRx := rfl

/-- TX.IDLE clears its pulse alone (R202). -/
theorem exec_txIdle (rx : Bool) (s : State) :
    exec (.txIdle rx) s = .next { s with tx := s.tx.quiet } := rfl

/-- Settles O58: what each idle operation leaves, and the port words without its strobe. -/
theorem idleClearsPulseOnly : Obligations.IdleClearsPulseOnly := fun x s =>
  ⟨exec_rxIdle x s, exec_txIdle x s,
    fun b d => ⟨decodePort_rx false false x b d, decodePort_tx false x false b d⟩⟩

/-- Where the script has ended, the next edge is idle and holds the strap (log 1). -/
theorem State.nextEdge_of_script_nil {s : State} (h : s.script = []) :
    s.nextEdge = Edge.idle s.lenientKind := by
  rw [State.nextEdge, h]

/-- Settles O15: the idle edge runs RX.IDLE and TX.IDLE. -/
theorem stepWithNoScriptIdles : Obligations.StepWithNoScriptIdles := by
  intro s h
  have hedge := State.nextEdge_of_script_nil h
  have hstep : step s = runInstrs exec [.rxIdle false, .txIdle false] s.dropEdge := by
    rw [step_run s (by rw [hedge]; rfl) (by rw [hedge]; rfl), hedge]
    rfl
  rw [runInstrs_cons_next (exec_rxIdle false _), runInstrs_cons_next (exec_txIdle false _),
    runInstrs_nil] at hstep
  exact ⟨_, hstep, rfl, rfl, rfl, rfl, congrArg List.tail h⟩

/-! ### Idle edges between bytes -/

/-- `mapNext` answers a next state exactly where the meaning does. -/
theorem mapNext_eq_next_iff {f : State → State} {r : Result} {t : State} :
    mapNext f r = .next t ↔ ∃ u, r = .next u ∧ f u = t := by
  cases r <;> simp [mapNext]

/-- `mapNext` keeps the faults. -/
theorem mapNext_eq_fault_iff {f : State → State} {r : Result} {q : Fault} :
    mapNext f r = .fault q ↔ r = .fault q := by
  cases r <;> simp [mapNext]

/-- `mapNext` keeps the refusals. -/
theorem mapNext_eq_refused_iff {f : State → State} {r : Result} {q : Refusal} :
    mapNext f r = .refused q ↔ r = .refused q := by
  cases r <;> simp [mapNext]

/-- Every RXSTEP row writes the pulse and reads it nowhere (R34, R140). -/
theorem runRxRow_quietRx (i : Instr) (s : State) : runRxRow i s.quietRx = runRxRow i s := by
  cases i <;> rfl

/-- RX.STEP does not see whether the pulse was high (R34, R140). -/
theorem exec_rxStep_quietRx (tx : Bool) (b : Byte) (s : State) :
    exec (.rxStep tx b) s.quietRx = exec (.rxStep tx b) s := by
  have hword : s.quietRx.rxWord b = s.rxWord b := rfl
  simp only [exec, execRxStep, hword, runRxRow_quietRx]

/-- Clearing the pulse before a run of RX.STEPs changes at most the pulse after it, and that only in the
empty run: the first RX.STEP writes it. -/
theorem runInstrs_quietRx {bytes : List Instr} (h : ∀ i ∈ bytes, ∃ tx b, i = .rxStep tx b)
    (s : State) :
    mapNext State.quietRx (runInstrs exec bytes s.quietRx) =
      mapNext State.quietRx (runInstrs exec bytes s) := by
  cases bytes with
  | nil => rfl
  | cons i rest =>
    obtain ⟨tx, b, rfl⟩ := h i List.mem_cons_self
    simp only [runInstrs, exec_rxStep_quietRx]

/-- The RX.IDLEs of a run of RX operations may be left out, up to the pulse (R201, R268). The test `isStep`
is any that tells RX.STEP from RX.IDLE. -/
theorem runInstrs_filter_rxStep {isStep : Instr → Bool}
    (hstep : ∀ tx b, isStep (.rxStep tx b) = true) (hidle : ∀ tx, isStep (.rxIdle tx) = false)
    {ops : List Instr} (hops : ∀ i ∈ ops, ∃ tx, (∃ b, i = .rxStep tx b) ∨ i = .rxIdle tx)
    (s : State) :
    mapNext State.quietRx (runInstrs exec ops s) =
      mapNext State.quietRx (runInstrs exec (ops.filter isStep) s) := by
  induction ops generalizing s with
  | nil => rfl
  | cons i rest ih =>
    obtain ⟨hi, hrest⟩ := List.forall_mem_cons.1 hops
    obtain ⟨tx, ⟨b, rfl⟩ | rfl⟩ := hi
    · rw [List.filter_cons_of_pos (hstep tx b), runInstrs, runInstrs]
      cases exec (.rxStep tx b) s with
      | next t => exact ih hrest t
      | fault r => rfl
      | refused r => rfl
    · have hbytes : ∀ i ∈ rest.filter isStep, ∃ tx b, i = .rxStep tx b := by
        intro i hmem
        obtain ⟨hin, hi⟩ := List.mem_filter.1 hmem
        obtain ⟨tx, ⟨b, rfl⟩ | rfl⟩ := hrest i hin
        · exact ⟨tx, b, rfl⟩
        · rw [hidle] at hi; cases hi
      rw [List.filter_cons_of_neg (by rw [hidle]; exact Bool.false_ne_true),
        runInstrs_cons_next (exec_rxIdle tx s), ih hrest, runInstrs_quietRx hbytes]

/-- Settles O59: the run and the run of its bytes answer the same up to the pulse. -/
theorem idleBetweenBytesChangesNothing : Obligations.IdleBetweenBytesChangesNothing := by
  intro s ops hops bytesOnly
  have hrun : mapNext State.quietRx (runInstrs exec ops s) =
      mapNext State.quietRx (runInstrs exec bytesOnly s) :=
    runInstrs_filter_rxStep (fun _ _ => rfl) (fun _ => rfl) hops s
  refine ⟨fun u hu => ?_, fun r hr => ?_, fun r hr => ?_⟩
  · rw [hu] at hrun
    obtain ⟨t, ht, hquiet⟩ := mapNext_eq_next_iff.1 hrun
    exact ⟨t, ht, State.quietRx_eq_quietRx_iff.1 hquiet⟩
  · rw [hr] at hrun
    exact mapNext_eq_fault_iff.1 hrun
  · rw [hr] at hrun
    exact mapNext_eq_refused_iff.1 hrun

end Sys2Proof.Machine
end

section
/-! EVERY EDGE IS ACCEPTED (R231, R140, R183): from the invariant the RX operation of an edge completes, the
TX operation completes from every state, and only a strap that moves without reset is refused (R261). -/

namespace Sys2Proof.Machine

/-- From the invariant the RX operation of an edge completes (R140, R201). -/
theorem State.Inv.exists_exec_rxInstr {s : State} (hs : s.Inv) (e : Edge) :
    ∃ t, exec e.rxInstr s = .next t := by
  cases hv : e.iRxValid with
  | true =>
    obtain ⟨i, t, -, hrow, ht⟩ := rxStepCompletes e.iTxReq e.iRxByte s hs
    rw [Edge.rxInstr_byte hv]
    exact ⟨t, hrow.trans ht⟩
  | false =>
    rw [Edge.rxInstr_idle hv]
    exact ⟨_, exec_rxIdle _ s⟩

/-- The TX operation of an edge completes from every state (R183, R202). -/
theorem exists_exec_txInstr (e : Edge) (s : State) : ∃ t, exec e.txInstr s = .next t := by
  have htx : ∃ rx d, e.txInstr = .txFrame rx d ∨ e.txInstr = .txIdle rx :=
    ⟨e.iRxValid, e.iTx, ite_eq_or_eq _ _ _⟩
  obtain ⟨g, hg⟩ := exec_tx_eq_mapOutsideRx htx s.lenientKind
  exact ⟨_, hg s rfl⟩

/-- The idle edge after the script keeps the strap, so the next edge is allowed wherever the first edge of
the script is (R261, log 1). -/
theorem State.nextEdge_allowed {s : State}
    (h : ∀ e rest, s.script = e :: rest → e.rst = true ∨ e.lenientKind = s.lenientKind) :
    s.nextEdge.rst = true ∨ s.nextEdge.lenientKind = s.lenientKind := by
  cases hscript : s.script with
  | nil => rw [State.nextEdge_of_script_nil hscript]; exact .inr rfl
  | cons e rest => rw [State.nextEdge_of_script hscript]; exact h e rest hscript

/-- Settles O18: an edge with reset runs RESET; any other keeps the strap and runs its RX and its TX
operation, which both complete. -/
theorem everyEdgeIsAccepted : Obligations.EveryEdgeIsAccepted := by
  intro s hs hscript
  cases hr : s.nextEdge.rst with
  | true => exact ⟨_, step_reset s hr⟩
  | false =>
    have hl : s.nextEdge.lenientKind = s.lenientKind :=
      (State.nextEdge_allowed hscript).resolve_left (by simp [hr])
    obtain ⟨u, hu⟩ := hs.dropEdge.exists_exec_rxInstr s.nextEdge
    obtain ⟨t, ht⟩ := exists_exec_txInstr s.nextEdge u
    exact ⟨t, calc
      step s = runInstrs exec [s.nextEdge.rxInstr, s.nextEdge.txInstr] s.dropEdge :=
        step_run s hr hl
      _ = runInstrs exec [s.nextEdge.txInstr] u := runInstrs_cons_next hu _
      _ = exec s.nextEdge.txInstr u := runInstrs_singleton exec _ u
      _ = .next t := ht⟩

end Sys2Proof.Machine
end

section
/-! BOOT AND THE STRAP (R260, R261): an edge with reset leaves the reset values under its own strap from any
state, and no other edge moves the strap. -/

namespace Sys2Proof.Machine

/-! ### Boot -/

/-- An edge with reset leaves `State.reset` under the strap that it carries (R43, R200). -/
theorem step_eq_reset {s : State} {e : Edge} {rest : List Edge} (h : s.script = e :: rest)
    (hr : e.rst = true) :
    step s = .next { State.reset with lenientKind := e.lenientKind, script := rest } := by
  obtain ⟨hreset, -⟩ := resetStateIsWhatResetLeaves
  obtain ⟨hstep, -, -⟩ := stepRunsDecodedEdge s e rest h
  obtain ⟨-, hexec⟩ := hstep hr
  rw [hexec, hreset]

/-- Further edges with reset and the same strap keep the reset values. -/
theorem core_run_boot_of_reset {l : Bool} {boot : List Edge} (rest : List Edge)
    (h : ∀ e ∈ boot, e.rst = true ∧ e.lenientKind = l) :
    Host.Core.run Sys2Proof.core boot.length
        { State.reset with lenientKind := l, script := boot ++ rest } =
      .next { State.reset with lenientKind := l, script := rest } := by
  induction boot with
  | nil => rfl
  | cons e boot ih =>
    obtain ⟨⟨hr, rfl⟩, hboot⟩ := List.forall_mem_cons.1 h
    exact (core_run_next (step_eq_reset rfl hr)).trans (ih hboot)

/-- Settles O6: the first edge with reset leaves the reset values, and the others keep them. -/
theorem bootLeavesResetState : Obligations.BootLeavesResetState := by
  intro s l boot rest hne h hscript
  obtain ⟨e, boot, rfl⟩ := List.exists_cons_of_ne_nil hne
  obtain ⟨⟨hr, rfl⟩, hboot⟩ := List.forall_mem_cons.1 h
  exact (core_run_next (step_eq_reset hscript hr)).trans (core_run_boot_of_reset rest hboot)

/-! ### The strap -/

/-- The RX operation of an edge keeps the strap held (R70). -/
theorem exec_rxInstr_lenientKind {e : Edge} {s t : State} (h : exec e.rxInstr s = .next t) :
    t.lenientKind = s.lenientKind :=
  exec_rx_lenientKind ⟨e.iTxReq, e.iRxByte, ite_eq_or_eq _ _ _⟩ h

/-- The TX operation of an edge keeps the strap held (R70). -/
theorem exec_txInstr_lenientKind {e : Edge} {s t : State} (h : exec e.txInstr s = .next t) :
    t.lenientKind = s.lenientKind := by
  obtain ⟨o, rfl, -⟩ := exec_txInstr_cases h
  rfl

/-- The idle edge after the script has no reset, so a next edge with reset is the script's first (log 1). -/
theorem State.exists_script_of_nextEdge_rst {s : State} (h : s.nextEdge.rst = true) :
    ∃ rest, s.script = s.nextEdge :: rest := by
  cases hscript : s.script with
  | nil => rw [State.nextEdge_of_script_nil hscript] at h; cases h
  | cons e rest => exact ⟨rest, by rw [State.nextEdge_of_script hscript]⟩

/-- Settles O16: of the two cases of a step, the RX and the TX operation keep the strap, and RESET takes
that of the edge. -/
theorem strapMovesOnlyUnderReset : Obligations.StrapMovesOnlyUnderReset := by
  refine ⟨fun s e rest hscript => ?_, fun s t h hmoved => ?_⟩
  · obtain ⟨-, -, hrefused⟩ := stepRunsDecodedEdge s e rest hscript
    exact hrefused
  · rcases step_cases h with ⟨hr, rfl⟩ | ⟨-, u, hu, ht⟩
    · obtain ⟨rest, hscript⟩ := State.exists_script_of_nextEdge_rst hr
      exact ⟨s.nextEdge, rest, hscript, hr, rfl⟩
    · have hkept : t.lenientKind = s.lenientKind := calc
        t.lenientKind = u.lenientKind := exec_txInstr_lenientKind ht
        _ = s.dropEdge.lenientKind := exec_rxInstr_lenientKind hu
        _ = s.lenientKind := s.dropEdge_lenientKind
      exact absurd hkept hmoved

end Sys2Proof.Machine
end
